-- ==== Sys2Proof/Word.lean ====
section
/-! DEFINITION. The value types of the spec (00_scope.md R12), the four axes (R4) and records with one
entry per axis. -/

namespace Sys2Proof

/-- `u8` (R12). -/
abbrev Byte := BitVec 8

/-- `u16` (R12). -/
abbrev Half := BitVec 16

/-- `u32` (R12), and the bits of an `i32`, whose `+` and `-` wrap alike (R13). -/
abbrev Word := BitVec 32

/-- A device register address as it stands in the address byte of a frame: 7 bits, the top bit being
reserved for the write flag (20_memory.md R71). `Instr.wellFormed` checks the top bit. -/
abbrev RegAddr := BitVec 8

/-- The motion axes, in dispatch order (R4); `z` is the vertical axis and `e` the extruder axis. -/
inductive Axis where
  | x | y | z | e
  deriving DecidableEq, Repr, Inhabited

/-- The loop order `[X, Y, Z, E]` of the rules. -/
def Axis.all : List Axis := [.x, .y, .z, .e]

/-- A direction multiplier or a homing direction, `+1` or `-1` (10_state.md R31, 00_scope.md R10). -/
inductive Sign where
  | plus | minus
  deriving DecidableEq, Repr, Inhabited

/-- One value of type `α` for each axis: the arrays `f[a]` of the spec. -/
structure PerAxis (α : Type) where
  x : α
  y : α
  z : α
  e : α
  deriving DecidableEq, Repr, Inhabited

namespace PerAxis

variable {α β : Type}

/-- The read `f[a]` (00_scope.md R14). -/
def get (p : PerAxis α) : Axis → α
  | .x => p.x
  | .y => p.y
  | .z => p.z
  | .e => p.e

/-- The write `f[a] <- v` (00_scope.md R14). -/
def set (p : PerAxis α) (a : Axis) (v : α) : PerAxis α :=
  match a with
  | .x => { p with x := v }
  | .y => { p with y := v }
  | .z => { p with z := v }
  | .e => { p with e := v }

/-- The record whose entry for axis `a` is `f a`. -/
def ofFn (f : Axis → α) : PerAxis α := ⟨f .x, f .y, f .z, f .e⟩

/-- The record with `v` for every axis. -/
def const (v : α) : PerAxis α := ⟨v, v, v, v⟩

end PerAxis

end Sys2Proof
end

