-- ==== Sys2Proof/Syntax.lean ====
section
/-! DEFINITION. The operations of 30_encoding.md R103, the command words' abstract syntax, and the
symbolic device registers of 10_state.md R43. -/

namespace Sys2Proof

/-- The operation codes of 30_encoding.md R103, one per row of the opcode table. -/
inductive Opcode where
  | init | calculate | home | setpos | getpos | rbCount | endstop
  | busWrite | busRead
  | rbTryEnqueue | rbCommit | rbPeekReady | rbDiscard
  | csEnter | csExit | idleYield
  | timerCompare
  | planGet | planDiscard
  deriving DecidableEq, Repr, Inhabited

/-- One operation with its operands (30_encoding.md R103, R105; syntax R110, R111). A host command's
argument is not here: it is `ARG0`, read when the command is issued. The data of BUS_WRITE is the data
operand that accompanies the command word (R105). -/
inductive Instr where
  /-- `INIT` (45 R250). -/
  | init
  /-- `CALC` (42 R170). -/
  | calculate
  /-- `HOME ax`, feedrate in `ARG0` (44 R221). -/
  | home (ax : Axis)
  /-- `SETPOS ax`, position in `ARG0` (45 R255). -/
  | setpos (ax : Axis)
  /-- `GETPOS ax` (45 R256). -/
  | getpos (ax : Axis)
  /-- `RB_COUNT` (41 R158). -/
  | rbCount
  /-- `ENDSTOP ax`, bit mask in `ARG0` (45 R257). -/
  | endstop (ax : Axis)
  /-- `BUS_WRITE ax, reg, data` (40 R134). -/
  | busWrite (ax : Axis) (reg : RegAddr) (data : Word)
  /-- `BUS_READ ax, reg` (40 R136). -/
  | busRead (ax : Axis) (reg : RegAddr)
  /-- `RB_TRY_ENQUEUE` (41 R152). -/
  | rbTryEnqueue
  /-- `RB_COMMIT` (41 R153). -/
  | rbCommit
  /-- `RB_PEEK_READY` (41 R154). -/
  | rbPeekReady
  /-- `RB_DISCARD` (41 R155). -/
  | rbDiscard
  /-- `CS_ENTER` (45 R258). -/
  | csEnter
  /-- `CS_EXIT` (45 R259). -/
  | csExit
  /-- `IDLE_YIELD` (45 R260). -/
  | idleYield
  /-- `TIMER_COMPARE`, the interrupt event (43 R200). -/
  | timerCompare
  /-- `PLAN_GET` (45 R261). -/
  | planGet
  /-- `PLAN_DISCARD` (45 R262). -/
  | planDiscard
  deriving DecidableEq, Repr, Inhabited

/-- The operation an instruction is of. -/
def Instr.opcode : Instr → Opcode
  | .init => .init
  | .calculate => .calculate
  | .home _ => .home
  | .setpos _ => .setpos
  | .getpos _ => .getpos
  | .rbCount => .rbCount
  | .endstop _ => .endstop
  | .busWrite _ _ _ => .busWrite
  | .busRead _ _ => .busRead
  | .rbTryEnqueue => .rbTryEnqueue
  | .rbCommit => .rbCommit
  | .rbPeekReady => .rbPeekReady
  | .rbDiscard => .rbDiscard
  | .csEnter => .csEnter
  | .csExit => .csExit
  | .idleYield => .idleYield
  | .timerCompare => .timerCompare
  | .planGet => .planGet
  | .planDiscard => .planDiscard

/-- The symbolic registers of an axis chip (10_state.md R43). -/
inductive DevReg where
  | vmax | amax | dmax | vstart | vstop | xtarget | xactual | rampmode | rampStat | swMode
  | iholdIrun | v1 | chopconf | gconf | coolconf | tcoolthrs
  deriving DecidableEq, Repr, Inhabited

/-- Every symbol of 10_state.md R43. -/
def DevReg.all : List DevReg :=
  [.vmax, .amax, .dmax, .vstart, .vstop, .xtarget, .xactual, .rampmode, .rampStat, .swMode,
    .iholdIrun, .v1, .chopconf, .gconf, .coolconf, .tcoolthrs]

end Sys2Proof
end

