-- ==== Sys2Proof/WellFormed.lean ====
section
/-! DEFINITION. Which instructions have an encoding (30_encoding.md R100, R105). An axis is valid by its
type (R105: "always a valid axis because NAXES = 4"); a register address must fit the 7-bit REG field. -/

namespace Sys2Proof

/-- The 7-bit register address of R71 and R100: the top bit of the address byte is clear. -/
def RegAddr.fits (r : RegAddr) : Bool := r.toNat < 128

/-- An instruction is well formed when each operand fits its field of `CMD32` (R100). -/
def Instr.wellFormed : Instr → Bool
  | .init => true
  | .calculate => true
  | .home _ => true
  | .setpos _ => true
  | .getpos _ => true
  | .rbCount => true
  | .endstop _ => true
  | .busWrite _ r _ => RegAddr.fits r
  | .busRead _ r => RegAddr.fits r
  | .rbTryEnqueue => true
  | .rbCommit => true
  | .rbPeekReady => true
  | .rbDiscard => true
  | .csEnter => true
  | .csExit => true
  | .idleYield => true
  | .timerCompare => true
  | .planGet => true
  | .planDiscard => true

end Sys2Proof
end

