-- ==== Sys2Proof/Decode.lean ====
section
/-! DEFINITION. The command word `CMD32` (30_encoding.md R100, R103, R104): decoder and encoder. Decoding
here covers the checks of R104 that look at the word alone; the checks that look at the state stand in
Machine/Ops.lean and Machine/Agents.lean. -/

namespace Sys2Proof

/-- Why a command word stands for no operation (30_encoding.md R104, R107). -/
inductive DecodeError where
  /-- `OPC` is not in the table of R103. -/
  | unknownOpcode
  /-- `RSV` is not 0. -/
  | reservedNotZero
  /-- `REG` is not 0 and the operation does not use it. -/
  | regNotZero
  /-- `AX` is not 0 and the operation does not use it. -/
  | axisNotZero
  deriving DecidableEq, Repr

/-- The `OPC` column of 30_encoding.md R103. -/
def Opcode.code : Opcode → Byte
  | .init => 0x01#8
  | .calculate => 0x02#8
  | .home => 0x03#8
  | .setpos => 0x04#8
  | .getpos => 0x05#8
  | .rbCount => 0x06#8
  | .endstop => 0x07#8
  | .busWrite => 0x10#8
  | .busRead => 0x11#8
  | .rbTryEnqueue => 0x20#8
  | .rbCommit => 0x21#8
  | .rbPeekReady => 0x22#8
  | .rbDiscard => 0x23#8
  | .csEnter => 0x30#8
  | .csExit => 0x31#8
  | .idleYield => 0x32#8
  | .timerCompare => 0x40#8
  | .planGet => 0x50#8
  | .planDiscard => 0x51#8

/-- The rows of 30_encoding.md R103, in the table's order. -/
def Opcode.table : List Opcode :=
  [.init, .calculate, .home, .setpos, .getpos, .rbCount, .endstop, .busWrite, .busRead, .rbTryEnqueue,
    .rbCommit, .rbPeekReady, .rbDiscard, .csEnter, .csExit, .idleYield, .timerCompare, .planGet,
    .planDiscard]

/-- The row of R103 whose `OPC` is `c`. -/
def Opcode.ofCode (c : Byte) : Option Opcode := Opcode.table.find? fun o => o.code == c

/-- The "host" column of 30_encoding.md R103: a host write to `CMD` may issue the operation. -/
def Opcode.hostIssuable : Opcode → Bool
  | .init | .calculate | .home | .setpos | .getpos | .rbCount | .endstop => true
  | .busWrite | .busRead | .rbTryEnqueue | .rbCommit | .rbPeekReady | .rbDiscard => false
  | .csEnter | .csExit | .idleYield | .timerCompare | .planGet | .planDiscard => false

/-- The "AX" column of 30_encoding.md R103: the field is an operand. -/
def Opcode.usesAxis : Opcode → Bool
  | .home | .setpos | .getpos | .endstop | .busWrite | .busRead => true
  | .init | .calculate | .rbCount | .rbTryEnqueue | .rbCommit | .rbPeekReady | .rbDiscard => false
  | .csEnter | .csExit | .idleYield | .timerCompare | .planGet | .planDiscard => false

/-- The "REG" column of 30_encoding.md R103: the field is an operand. -/
def Opcode.usesReg : Opcode → Bool
  | .busWrite | .busRead => true
  | .init | .calculate | .home | .setpos | .getpos | .rbCount | .endstop => false
  | .rbTryEnqueue | .rbCommit | .rbPeekReady | .rbDiscard => false
  | .csEnter | .csExit | .idleYield | .timerCompare | .planGet | .planDiscard => false

/-- The axis index of 00_scope.md R4. -/
def Axis.code : Axis → BitVec 2
  | .x => 0#2
  | .y => 1#2
  | .z => 2#2
  | .e => 3#2

/-- The axis with a given index (30_encoding.md R105). -/
def Axis.ofCode (c : BitVec 2) : Axis :=
  if c = 0#2 then .x else if c = 1#2 then .y else if c = 2#2 then .z else .e

/-- `OPC`, bits [31:24] (30_encoding.md R100). -/
def opcField (w : Word) : Byte := w.extractLsb' 24 8

/-- `AX`, bits [23:22] (30_encoding.md R100). -/
def axField (w : Word) : BitVec 2 := w.extractLsb' 22 2

/-- `RSV`, bits [21:7] (30_encoding.md R100). -/
def rsvField (w : Word) : BitVec 15 := w.extractLsb' 7 15

/-- `REG`, bits [6:0] (30_encoding.md R100). -/
def regField (w : Word) : BitVec 7 := w.extractLsb' 0 7

/-- The instruction of an operation with operands taken from the fields (30_encoding.md R105). -/
def Opcode.instr (o : Opcode) (ax : Axis) (reg : RegAddr) (data : Word) : Instr :=
  match o with
  | .init => .init
  | .calculate => .calculate
  | .home => .home ax
  | .setpos => .setpos ax
  | .getpos => .getpos ax
  | .rbCount => .rbCount
  | .endstop => .endstop ax
  | .busWrite => .busWrite ax reg data
  | .busRead => .busRead ax reg
  | .rbTryEnqueue => .rbTryEnqueue
  | .rbCommit => .rbCommit
  | .rbPeekReady => .rbPeekReady
  | .rbDiscard => .rbDiscard
  | .csEnter => .csEnter
  | .csExit => .csExit
  | .idleYield => .idleYield
  | .timerCompare => .timerCompare
  | .planGet => .planGet
  | .planDiscard => .planDiscard

/-- The operation a command word and its data operand stand for (30_encoding.md R104, R105, R107). Only
BUS_WRITE reads the data operand. -/
def decode (w data : Word) : Except DecodeError Instr :=
  match Opcode.ofCode (opcField w) with
  | none => .error .unknownOpcode
  | some o =>
    if rsvField w ≠ 0#15 then .error .reservedNotZero
    else if o.usesReg = false ∧ regField w ≠ 0#7 then .error .regNotZero
    else if o.usesAxis = false ∧ axField w ≠ 0#2 then .error .axisNotZero
    else .ok (o.instr (Axis.ofCode (axField w)) ((regField w).zeroExtend 8) data)

/-- The axis field of an instruction, 0 where it has none (30_encoding.md R103). -/
def Instr.axBits : Instr → BitVec 2
  | .home ax => ax.code
  | .setpos ax => ax.code
  | .getpos ax => ax.code
  | .endstop ax => ax.code
  | .busWrite ax _ _ => ax.code
  | .busRead ax _ => ax.code
  | .init | .calculate | .rbCount | .rbTryEnqueue | .rbCommit | .rbPeekReady | .rbDiscard => 0#2
  | .csEnter | .csExit | .idleYield | .timerCompare | .planGet | .planDiscard => 0#2

/-- The register field of an instruction, 0 where it has none (30_encoding.md R103). -/
def Instr.regBits : Instr → BitVec 7
  | .busWrite _ r _ => r.truncate 7
  | .busRead _ r => r.truncate 7
  | .init | .calculate | .home _ | .setpos _ | .getpos _ | .rbCount | .endstop _ => 0#7
  | .rbTryEnqueue | .rbCommit | .rbPeekReady | .rbDiscard => 0#7
  | .csEnter | .csExit | .idleYield | .timerCompare | .planGet | .planDiscard => 0#7

/-- The command word of an instruction: `OPC`, `AX`, `RSV = 0`, `REG` (30_encoding.md R100). -/
def encode (i : Instr) : Word :=
  i.opcode.code ++ (i.axBits ++ (0#15 ++ i.regBits))

/-- The data operand that accompanies the command word of an instruction (30_encoding.md R105). -/
def Instr.dataOperand : Instr → Word
  | .busWrite _ _ v => v
  | .init | .calculate | .home _ | .setpos _ | .getpos _ | .rbCount | .endstop _ | .busRead _ _ => 0#32
  | .rbTryEnqueue | .rbCommit | .rbPeekReady | .rbDiscard => 0#32
  | .csEnter | .csExit | .idleYield | .timerCompare | .planGet | .planDiscard => 0#32

/-- The bits of an opcode-table row as a command word: `nbits` bits of `w`, the others 0. -/
def tableWord (nbits w : Nat) : Word := BitVec.ofNat 32 (w % 2 ^ nbits)

/-- The data operand beside it: the bits of `w` above the command word. -/
def tableData (nbits w : Nat) : Word := BitVec.ofNat 32 (w % 2 ^ nbits / 2 ^ 32)

/-- What the decoder reads from the `nbits` bits `w` of an opcode-table row. -/
def decodeTableWord (nbits w : Nat) : Option Instr :=
  match decode (tableWord nbits w) (tableData nbits w) with
  | .ok i => some i
  | .error _ => none

end Sys2Proof
end

