-- ==== Sys2Proof/Config.lean ====
section
/-! DEFINITION. The implementation parameters of 00_scope.md R10, the free values of 40_bus_transport.md
R132 and 60_exceptions.md R280, and the inputs that come from outside the block. -/

namespace Sys2Proof

/-- A kinematic block of the planner (10_state.md R27). `steps` is a magnitude; bit `a` of `dirBits` is 1
where axis `a` moves in the negative direction. -/
structure Block where
  steps : PerAxis Word
  dirBits : Byte
  eventCount : Word
  initialRate : Word
  nominalRate : Word
  finalRate : Word
  accel : Word
  accelUntil : Word
  decelAfter : Word
  deriving DecidableEq, Repr, Inhabited

/-- One step of one agent (10_state.md R20, R21; 60_exceptions.md R280), named before it is known whether
it is enabled. -/
inductive Action where
  /-- The host's `MemRead(addr, n)` (20_memory.md R73). -/
  | hostRead (addr n : Nat)
  /-- The host's `MemWrite(addr, n, v)` (20_memory.md R73). -/
  | hostWrite (addr n : Nat) (v : Word)
  /-- The host appends a block to the planner queue (10_state.md R44). -/
  | hostAppend (b : Block)
  /-- The next step of the foreground operation in progress (10_state.md R25). -/
  | foreground
  /-- The timer agent's `TimerCompareEvent` (60_exceptions.md R278). -/
  | timerEvent
  /-- The interrupt unit's step (60_exceptions.md R279). -/
  | interrupt
  /-- Power-on or external reset (70_reset_and_hazards.md R300). -/
  | reset
  deriving DecidableEq, Repr, Inhabited

/-- The parameters of 00_scope.md R10 and the sources of the draws of 40_bus_transport.md R132. The ring
capacity is `2 ^ logN` (R28), at most `2 ^ 31` so that a count of `N` fits the `u32` RESULT (log 1). -/
structure Params where
  logN : Fin 32
  accMin : PerAxis Word
  vstopMin : PerAxis Word
  vstopMax : PerAxis (Option Word)
  timeUnit : Nat
  corrNum : Nat
  corrDen : Nat
  pollTicks : Word
  prescaler : Nat
  ocrInit : Half
  writeFlag : Byte
  devreg : DevReg → RegAddr
  modePosition : Word
  modeHold : Word
  modeVelPos : Word
  modeVelNeg : Word
  vzeroMask : Word
  smoothMask : Word
  cfgIholdIrun : PerAxis Word
  cfgChopconf : PerAxis Word
  cfgGconf : PerAxis Word
  cfgSwmodeInit : PerAxis Word
  cfgSwmodeSwitch : PerAxis Word
  cfgSwmodeStall : PerAxis Word
  stallSens : PerAxis Word
  amaxCeil : Word
  vmaxCeil : Word
  stallHoming : PerAxis Bool
  homeDir : PerAxis Sign
  bumpDist : PerAxis Nat
  /-- `ToSteps(a, d)`. -/
  toSteps : Axis → Nat → Word
  /-- `ToVel(a, f)`. -/
  toVel : Axis → Word → Word
  tstepK : Word
  /-- The draw `Oracle(a, r)` taken as free value number `n`. -/
  oracle : Nat → Axis → RegAddr → Word
  /-- The draw `Oracle_status(a)` taken as free value number `n`. -/
  oracleStatus : Nat → Axis → Byte
  /-- The draw `Oracle_any(a)` taken as free value number `n`. -/
  oracleAny : Nat → Axis → Word
  deriving Inhabited

namespace Params

/-- The ring capacity `N`, a power of two (10_state.md R28). -/
def n (K : Params) : Word := 1#32 <<< K.logN.val

/-- Exactly one bit is set. -/
def isOneBit {w : Nat} (m : BitVec w) : Bool := m != 0#w && (m &&& (m - 1#w)) == 0#w

/-- No two entries of the list are equal. -/
def allDistinct {α : Type} [BEq α] : List α → Bool
  | [] => true
  | v :: vs => !vs.contains v && allDistinct vs

/-- The floor lies under the ceiling where there is one (00_scope.md R10, row `VSTOP_MAX[a]`). -/
def ceilingOk (lo : Word) : Option Word → Bool
  | none => true
  | some hi => decide (lo ≤ hi)

/-- The constraint column of 00_scope.md R10, with the 7-bit addresses of 20_memory.md R71, the distinct
addresses of 92 D23 and the write flag: one bit (R10), the top bit of the address byte, which R71 reserves for
it, in no register address (30_encoding.md R106; log 27). -/
def admissible (K : Params) : Bool :=
  (Axis.all.all fun a => decide (1#32 ≤ K.accMin.get a))
  && (Axis.all.all fun a => ceilingOk (K.vstopMin.get a) (K.vstopMax.get a))
  && (Axis.all.filter fun a => (K.vstopMax.get a).isSome).length == 2
  && decide (1 ≤ K.timeUnit) && decide (1 ≤ K.corrDen) && decide (1#32 ≤ K.pollTicks)
  && (DevReg.all.all fun r => decide ((K.devreg r).toNat < 128) && (K.writeFlag &&& K.devreg r) == 0#8)
  && allDistinct (DevReg.all.map K.devreg)
  && allDistinct [K.modePosition, K.modeHold, K.modeVelPos, K.modeVelNeg]
  && isOneBit K.writeFlag && K.writeFlag.msb
  && isOneBit K.vzeroMask && isOneBit K.smoothMask

/-- The candidate addresses of 93 G1. They are no facts of the source (93 G1, "Treatment"). -/
def k0Devreg : DevReg → RegAddr
  | .gconf => 0x00#8
  | .iholdIrun => 0x10#8
  | .tcoolthrs => 0x14#8
  | .rampmode => 0x20#8
  | .xactual => 0x21#8
  | .vstart => 0x23#8
  | .v1 => 0x25#8
  | .amax => 0x26#8
  | .vmax => 0x27#8
  | .dmax => 0x28#8
  | .vstop => 0x2B#8
  | .xtarget => 0x2D#8
  | .swMode => 0x34#8
  | .rampStat => 0x35#8
  | .chopconf => 0x6C#8
  | .coolconf => 0x6D#8

/-- The example configuration K0 of 95_test_vectors.md section 0, "a choice made only so that the vectors
have numbers". Words the vectors keep symbolic are 0; every draw has the zero-velocity bit set. -/
def k0 : Params where
  logN := 2
  accMin := .const 1#32
  vstopMin := .const 10#32
  vstopMax := ⟨some 3000#32, some 3000#32, none, none⟩
  timeUnit := 1000000
  corrNum := 1
  corrDen := 1
  pollTicks := 100#32
  prescaler := 8
  ocrInit := 1000#16
  writeFlag := 0x80#8
  devreg := k0Devreg
  modePosition := 0#32
  modeHold := 3#32
  modeVelPos := 1#32
  modeVelNeg := 2#32
  vzeroMask := 0x400#32
  smoothMask := 0x4#32
  cfgIholdIrun := .const 0#32
  cfgChopconf := .const 0#32
  cfgGconf := .const 0#32
  cfgSwmodeInit := .const 0#32
  cfgSwmodeSwitch := .const 0#32
  cfgSwmodeStall := .const 0#32
  stallSens := .const 0#32
  amaxCeil := 0xFFFF#32
  vmaxCeil := 0x7FFE00#32
  stallHoming := ⟨false, true, false, false⟩
  homeDir := ⟨.minus, .plus, .minus, .plus⟩
  bumpDist := .const 800
  toSteps := fun _ d => BitVec.ofNat 32 d
  toVel := fun _ f => f
  tstepK := 16777216#32
  oracle := fun _ _ _ => 0x400#32
  oracleStatus := fun _ _ => 0#8
  oracleAny := fun _ _ => 0#32

end Params

/-- A configuration of this hardware: parameters that obey the constraints of 00_scope.md R10. The default
values only show that there is one. -/
structure Configuration where
  params : Params := Params.k0
  admissible : params.admissible = true := by rfl
  deriving Inhabited

/-- The configuration the implementation is given (00_scope.md R10). It has no body: nothing can be
proved of its values beyond the constraints it carries (log 2). -/
opaque Config.given : Configuration

/-- The machine's parameters (00_scope.md R10). -/
def Config.params : Params := Config.given.params

/-- `GIE_AT_BOOT`, decided true (00_scope.md R10, 92 D34). -/
def Config.gieAtBoot : Bool := true

/-- `Q`, the fraction bits of the axis ratio (00_scope.md R10). -/
def Config.q : Nat := 16

/-- `ACC_SHIFT` (00_scope.md R10). -/
def Config.accShift : Nat := 7

/-- `CHUNK_MAX` (00_scope.md R10). -/
def Config.chunkMax : Word := 0xFFFF#32

/-- The nondeterministic choice of the next agent's step (60_exceptions.md R280), taken as free value
number `n` where no choice stands in the state (log 3). -/
opaque Config.schedule : Nat → Action

end Sys2Proof
end

