-- ==== Sys2Proof/Machine/State.lean ====
section
/-! DEFINITION. The machine's state (10_state.md), the reasons a step can stop, and the state after reset
(10_state.md R48, 70_reset_and_hazards.md R300). -/

namespace Sys2Proof.Machine

/-- The faults of 60_exceptions.md R270. Raising one is a next state (R271), never a stop of the model. -/
inductive FaultCode where
  | notInitialised | reinit | illegalCommand | illegalAccess | busy | badBlock | busContention
  | rbOverflow | rbUnderflow | homeZeroSpeed | csUnbalanced
  deriving DecidableEq, Repr, Inhabited

/-- The phases of the homing state machine (44_homing.md R220). -/
inductive HomePhase where
  | idle
  | swEnable | swVmax | swMode | swArm
  | stSmoothOff | stSens | stThr | stArm | stVmax | stMode
  | seekPoll | seekYield
  | tHold | tZeroAct | tZeroTgt | tPosmode | tRetract
  | retPoll | retYield
  | swRearm | swPosmode
  | stSmoothOn
  | done
  deriving DecidableEq, Repr, Inhabited

/-- `(Vh, R, seek, thr)`, computed when HOME is issued and used by its phases (44_homing.md R221, R222;
log 13). -/
structure HomeParams where
  vh : Word
  retract : Word
  seek : Word
  thr : Word
  deriving DecidableEq, Repr, Inhabited

/-- The axis and the mask of an ENDSTOP in progress (45_init_and_interfaces.md R257; log 13). -/
structure EndCall where
  axis : Axis
  mask : Word
  deriving DecidableEq, Repr, Inhabited

/-- A bus read between its two frames (40_bus_transport.md R136, R137; log 12). -/
structure ReadPend where
  axis : Axis
  reg : RegAddr
  deriving DecidableEq, Repr, Inhabited

/-- A motion segment (10_state.md R29). `target` holds the bits of `i32` values. -/
structure Segment where
  acc : PerAxis Word
  vstart : PerAxis Word
  vmax : PerAxis Word
  vstop : PerAxis Word
  target : PerAxis Word
  zflag : Bool
  duration : Word
  ready : Bool
  deriving DecidableEq, Repr, Inhabited

/-- The most-recent-segment snapshot (10_state.md R32). -/
structure Snapshot where
  acc : PerAxis Word
  vstart : PerAxis Word
  vmax : PerAxis Word
  vstop : PerAxis Word
  target : PerAxis Word
  deriving DecidableEq, Repr, Inhabited

/-- The hardware timer's control state (10_state.md R34); `pending` is `tmr.if`. -/
structure Timer where
  ocr : Half
  ctc : Bool
  prescaler : Option Nat
  tie : Bool
  pending : Bool
  deriving DecidableEq, Repr, Inhabited

/-- An event of the trace (10_state.md R46). -/
inductive Event where
  /-- `Frame(a, ab, d_out, st_in, d_in)`. -/
  | frame (a : Axis) (ab : Byte) (dout : Word) (st : Byte) (din : Word)
  /-- `DriverEnable(a)`. -/
  | driverEnable (a : Axis)
  /-- `Yield`. -/
  | yield
  /-- `PlanDiscard`. -/
  | planDiscard
  /-- `TimerSet(ocr)`. -/
  | timerSet (ocr : Half)
  deriving DecidableEq, Repr, Inhabited

/-- What an internal operation that was issued by itself returned to its issuer (log 10). -/
inductive Ret where
  /-- Nothing returned yet. -/
  | none
  /-- The status byte of BUS_WRITE (40 R134). -/
  | status (st : Byte)
  /-- The value of BUS_READ (40 R136). -/
  | data (v : Word)
  /-- The slot index of RB_TRY_ENQUEUE or RB_PEEK_READY (41 R152, R154). -/
  | slot (i : Option Word)
  /-- The block of PLAN_GET (45 R261). -/
  | block (b : Option Block)
  deriving DecidableEq, Repr, Inhabited

/-- An internal operation's command word and data operand, staged to be issued by itself (log 4). -/
structure StagedOp where
  word : Word
  data : Word
  deriving DecidableEq, Repr, Inhabited

/-- The machine's state. INVENTORY.md lists every field with its rule and its reset value. -/
structure State where
  arg0 : Word
  result : Word
  fgOp : Option Opcode
  homePhase : HomePhase
  homeAxis : Option Axis
  homeParams : Option HomeParams
  endCall : Option EndCall
  readPend : Option ReadPend
  slots : List Segment
  head : Word
  tail : Word
  full : Bool
  prodSlot : Option Word
  pos : PerAxis Word
  dirmult : PerAxis Sign
  snap : Snapshot
  countdown : Word
  tmr : Timer
  gie : Bool
  csDepth : Nat
  inIsr : Bool
  initDone : Bool
  faults : List FaultCode
  firstFault : Byte
  cs : PerAxis Bool
  devLatch : PerAxis (Option Byte)
  plan : List Block
  trace : List Event
  fresh : Nat
  agenda : List Action
  opPort : Option StagedOp
  hostData : Word
  ret : Ret
  deriving DecidableEq, Repr, Inhabited

/-- Reasons a step stops with a fault. -/
inductive Fault where
  /-- Raised by `step` when the staged port holds a word that 30_encoding.md R103 gives no operation. No
  agent of the spec stages a word, and the block issues only operations of R103 (R108), so this is safe:
  no run of the spec reaches it (log 18). -/
  | noSuchOperation (w : Word)
  deriving DecidableEq, Repr

/-- Reasons a step is refused. -/
inductive Refusal where
  /-- Raised by an arm of `exec` whose instruction has no meaning yet. Safe: the model stops. No arm
  raises it now. -/
  | notModelled (mnemonic : String)
  deriving DecidableEq, Repr

/-- The outcome of an operation. -/
abbrev Result := Host.Outcome State Fault Refusal

/-- A slot after reset (10_state.md R48): not ready, no vertical flag; the unspecified fields are 0
(log 7). -/
def Segment.atReset : Segment where
  acc := .const 0#32
  vstart := .const 0#32
  vmax := .const 0#32
  vstop := .const 0#32
  target := .const 0#32
  zflag := false
  duration := 0#32
  ready := false

/-- The snapshot after reset, all zero (10_state.md R48, 70 R303). -/
def Snapshot.atReset : Snapshot where
  acc := .const 0#32
  vstart := .const 0#32
  vmax := .const 0#32
  vstop := .const 0#32
  target := .const 0#32

/-- The timer after reset (10_state.md R48): stopped; the unspecified compare value is 0 (log 6). -/
def Timer.atReset : Timer where
  ocr := 0#16
  ctc := false
  prescaler := none
  tie := false
  pending := false

/-- The reset values of 10_state.md R48 under configuration `K`. -/
def State.resetWith (K : Params) : State where
  arg0 := 0#32
  result := 0#32
  fgOp := none
  homePhase := .idle
  homeAxis := none
  homeParams := none
  endCall := none
  readPend := none
  slots := List.replicate K.n.toNat Segment.atReset
  head := 0#32
  tail := 0#32
  full := false
  prodSlot := none
  pos := .const 0#32
  dirmult := .const .plus
  snap := .atReset
  countdown := 0#32
  tmr := .atReset
  gie := Config.gieAtBoot
  csDepth := 0
  inIsr := false
  initDone := false
  faults := []
  firstFault := 0#8
  cs := .const false
  devLatch := .const none
  plan := []
  trace := []
  fresh := 0
  agenda := []
  opPort := none
  hostData := 0#32
  ret := .none

/-- The machine right after reset (10_state.md R48, 70_reset_and_hazards.md R300). -/
def State.reset : State := State.resetWith Config.params

end Sys2Proof.Machine
end

