-- ==== Sys2Proof/Machine/Flags.lean ====
section
/-! DEFINITION. The conditions and flags the rules read off the state: STATUS (10_state.md R23, R24), the
ring's and the handler's states (10_state.md R26, 41_ring_buffer.md R154), the timer's and the
interrupt's enabling conditions (60_exceptions.md R278, R279). -/

namespace Sys2Proof.Machine

/-- The code that `STATUS.FAULT_CODE` reports (60_exceptions.md R270). -/
def FaultCode.code : FaultCode → Byte
  | .notInitialised => 1#8
  | .reinit => 2#8
  | .illegalCommand => 3#8
  | .illegalAccess => 4#8
  | .busy => 5#8
  | .badBlock => 6#8
  | .busContention => 7#8
  | .rbOverflow => 8#8
  | .rbUnderflow => 9#8
  | .homeZeroSpeed => 10#8
  | .csUnbalanced => 11#8

/-- A fault has been recorded: the block is quiescent (60_exceptions.md R272). -/
def State.faulted (s : State) : Bool := !s.faults.isEmpty

/-- A HOME or an ENDSTOP is in progress: `STATUS.BUSY` (10_state.md R24). -/
def State.busy (s : State) : Bool := s.fgOp == some .home || s.fgOp == some .endstop

/-- A Bool as a bit. -/
def bit (b : Bool) : BitVec 1 := if b then 1#1 else 0#1

/-- `STATUS`: bit 0 BUSY, bit 1 FAULTED, bit 2 INIT_DONE, bits [15:8] FAULT_CODE, others 0
(10_state.md R23, R24). -/
def State.status (s : State) : Word :=
  0#16 ++ (s.firstFault ++ (0#5 ++ (bit s.initDone ++ (bit s.faulted ++ bit s.busy))))

/-- No segment is committed: `head = tail` and not `full` (41_ring_buffer.md R154). -/
def State.ringEmpty (s : State) : Bool := s.head == s.tail && !s.full

/-- `Slot[i]` (00_scope.md R14). An index outside the ring, which no rule produces, reads as a slot after
reset (log 20). -/
def State.slot (s : State) (i : Word) : Segment := s.slots.getD i.toNat Segment.atReset

/-- The states of the dispatch interrupt (10_state.md R26). -/
inductive HandlerState where
  | waiting | idle | dispatching
  deriving DecidableEq, Repr

/-- The handler's state, read off the countdown and the ring (10_state.md R26, 43 R200 to R202). -/
def State.handlerState (s : State) : HandlerState :=
  if s.countdown ≠ 0#32 then .waiting
  else if s.ringEmpty then .idle
  else if (s.slot s.tail).ready then .dispatching
  else .idle

/-- `TimerCompareEvent` is enabled (60_exceptions.md R278). -/
def State.timerRuns (s : State) : Bool := s.tmr.ctc && s.tmr.prescaler.isSome && !s.faulted

/-- The compare interrupt may be taken (60_exceptions.md R279). -/
def State.interruptTakeable (s : State) : Bool :=
  s.tmr.pending && s.tmr.tie && s.gie && s.csDepth == 0 && !s.inIsr && !s.faulted

end Sys2Proof.Machine
end

