-- ==== Sys2Proof/Machine/Operands.lean ====
section
/-! DEFINITION. Operand forms: the number operators of 00_scope.md R13, the ring index arithmetic of
41_ring_buffer.md R150, and the byte orders of the bus frame and the host window (20_memory.md R74, R75,
30_encoding.md R101, R106, 40_bus_transport.md R133). -/

namespace Sys2Proof.Machine

/-- `max` on `u32` (00_scope.md R13, 42 R186). -/
def umax (a b : Word) : Word := if a < b then b else a

/-- `min` on `u32` (00_scope.md R13, 42 R186). -/
def umin (a b : Word) : Word := if b < a then b else a

/-- `satsub` on `Nat` (00_scope.md R13). -/
def satsub (a b : Nat) : Nat := if b ≤ a then a - b else 0

/-- `clamp32` (00_scope.md R13). -/
def clamp32 (n : Nat) : Word := BitVec.ofNat 32 (min n 0xFFFFFFFF)

/-- The successor of ring index `i`: `(i + 1) & (N - 1)` (41_ring_buffer.md R150). -/
def ringNext (K : Params) (i : Word) : Word := (i + 1#32) &&& (K.n - 1#32)

/-- The ring's occupancy from its indices (41_ring_buffer.md R158). -/
def ringCount (K : Params) (head tail : Word) (full : Bool) : Word :=
  if full then K.n else (head - tail) &&& (K.n - 1#32)

/-- The position of axis `a`'s bit in `dir_bits` (10_state.md R27, 00_scope.md R4). -/
def axisIndex : Axis → Nat
  | .x => 0
  | .y => 1
  | .z => 2
  | .e => 3

/-- The address byte of a write frame: `WRITE_FLAG | REG` (30_encoding.md R106). -/
def writeAddress (K : Params) (r : RegAddr) : Byte := K.writeFlag ||| r

/-- The address byte of a read frame: `REG` (30_encoding.md R106). -/
def readAddress (r : RegAddr) : Byte := r

/-- The register an address byte names for the device's next answer: `pab & 0x7F` (40 R130). -/
def addressed (ab : Byte) : RegAddr := ab &&& 0x7F#8

/-- The four data bytes of a value in wire order, most significant first (20_memory.md R74, 40 R133). -/
def wireBytes (v : Word) : List Byte :=
  [v.extractLsb' 24 8, v.extractLsb' 16 8, v.extractLsb' 8 8, v.extractLsb' 0 8]

/-- The value of four received data bytes in wire order (40_bus_transport.md R133). -/
def ofWireBytes (b0 b1 b2 b3 : Byte) : Word := b0 ++ (b1 ++ (b2 ++ b3))

/-- The five bytes of `FRAME40` sent out: the address byte, then the data bytes (30_encoding.md R101). -/
def frameOut (ab : Byte) (dout : Word) : List Byte := ab :: wireBytes dout

/-- The five bytes of `FRAME40` received: the status byte, then the data bytes (30_encoding.md R101). -/
def frameIn (st : Byte) (din : Word) : List Byte := st :: wireBytes din

/-- Byte `k` of a host register, little-endian (20_memory.md R75). -/
def hostByte (v : Word) (k : Nat) : Byte := v.extractLsb' (8 * k) 8

end Sys2Proof.Machine
end

