-- ==== Sys2Proof/Machine/Ops.lean ====
section
/-! DEFINITION. The shared operations: raising a fault (60_exceptions.md R271), issuing an operation
(30_encoding.md R104), taking the interrupt and returning from it (60_exceptions.md R282, R285), critical
sections (00_scope.md R15), the trace, the bus frame and its two operations (40_bus_transport.md), the
ring (41_ring_buffer.md) and the planner interface (45_init_and_interfaces.md). -/

namespace Sys2Proof.Machine

/-! ### Faults -/

/-- `faults ∪ {c}`, the set kept as a list with strictly rising codes (60_exceptions.md R271). -/
def insertFault (c : FaultCode) : List FaultCode → List FaultCode
  | [] => [c]
  | d :: ds =>
    if c.code < d.code then c :: d :: ds
    else if c.code = d.code then d :: ds
    else d :: insertFault c ds

/-- `RaiseFault(c)` (60_exceptions.md R271). STATUS.FAULTED and STATUS.FAULT_CODE follow, being read off
these two fields (10_state.md R24). -/
def raiseFault (c : FaultCode) (s : State) : State :=
  { s with
    faults := insertFault c s.faults
    firstFault := if s.firstFault = 0#8 then c.code else s.firstFault }

/-- The end of a step that started in `s`: its result, or `s` with nothing but the fault recorded
(60_exceptions.md R271: "every other write of that step is discarded"). -/
def settle (s : State) : Except FaultCode State → State
  | .ok s' => s'
  | .error c => raiseFault c s

/-- A step of the foreground or interrupt unit: none is taken in a faulted state (60_exceptions.md
R272). -/
def unitStep (body : State → Except FaultCode State) (s : State) : State :=
  if s.faulted then s else settle s (body s)

/-- The checks of 30_encoding.md R104 that look at the state, in its order, before a host command runs.
`early` holds for INIT, "the only command admitted before init_done". -/
def issueChecks (early : Bool) (s : State) : Except FaultCode Unit :=
  if s.fgOp.isSome then .error .busy
  else if !early && !s.initDone then .error .notInitialised
  else .ok ()

/-- A host command: quiescence, the checks of R104, then its body (60_exceptions.md R275). -/
def hostCommand (early : Bool) (body : State → Except FaultCode State) (s : State) : State :=
  unitStep (fun s => do issueChecks early s; body s) s

/-! ### The interrupt -/

/-- Interrupt entry: the pending flag is cleared and `in_isr` set; no foreground state is saved
(60_exceptions.md R282). -/
def enterInterrupt (s : State) : State :=
  { s with tmr := { s.tmr with pending := false }, inIsr := true }

/-- Return from the interrupt: `in_isr <- false`, nothing is restored (60_exceptions.md R285). -/
def leaveInterrupt (s : State) : State := { s with inIsr := false }

/-! ### Critical sections -/

/-- `CS_ENTER` (45_init_and_interfaces.md R258). -/
def csOpen (s : State) : State := { s with csDepth := s.csDepth + 1 }

/-- `CS_EXIT` (45_init_and_interfaces.md R259). -/
def csClose (s : State) : Except FaultCode State :=
  if s.csDepth = 0 then .error .csUnbalanced
  else .ok { s with csDepth := s.csDepth - 1 }

/-- `atomic { body }`, which expands to `CS_ENTER; body; CS_EXIT` (00_scope.md R15, 45 R258). -/
def atomically (body : State → Except FaultCode State) (s : State) : Except FaultCode State := do
  let s' ← body (csOpen s)
  csClose s'

/-! ### The trace -/

/-- `Emit(e)` (10_state.md R47). -/
def emit (e : Event) (s : State) : State := { s with trace := s.trace ++ [e] }

/-! ### The bus -/

/-- The data a frame to axis `a` returns: the draw for the register the previous frame addressed, or any
draw where there was none (40_bus_transport.md R130, R131). -/
def frameAnswer (K : Params) (a : Axis) (s : State) : Word :=
  match s.devLatch.get a with
  | none => K.oracleAny s.fresh a
  | some pab => K.oracle s.fresh a (addressed pab)

/-- The status byte a frame returns, a draw (40_bus_transport.md R130). -/
def frameStatus (K : Params) (a : Axis) (s : State) : Byte := K.oracleStatus s.fresh a

/-- The state after `BusXfer(a, ab, dout)` (40_bus_transport.md R130): the select line is asserted and
released, the latch holds the address byte, the frame is in the trace, and one free value is taken. -/
def busXfer (K : Params) (a : Axis) (ab : Byte) (dout : Word) (s : State) : State :=
  let s1 := { s with cs := s.cs.set a true }
  let s2 := emit (.frame a ab dout (frameStatus K a s) (frameAnswer K a s))
    { s1 with devLatch := s1.devLatch.set a (some ab), fresh := s1.fresh + 1 }
  { s2 with cs := s2.cs.set a false }

/-- `BUS_WRITE a, r, v` with register address `r` (40_bus_transport.md R134); its status byte is
`frameStatus`. -/
def busWrite (K : Params) (a : Axis) (r : RegAddr) (v : Word) (s : State) : State :=
  busXfer K a (writeAddress K r) v s

/-- `BusWrite(a, r, v)` with symbolic register `r` (40_bus_transport.md R134). -/
def devWrite (K : Params) (a : Axis) (r : DevReg) (v : Word) (s : State) : State :=
  busWrite K a (K.devreg r) v s

/-- One register write of a sequence: axis, symbolic register, value. -/
structure RegWrite where
  axis : Axis
  reg : DevReg
  value : Word
  deriving DecidableEq, Repr

/-- Register writes in order (20_memory.md R88 item 5). -/
def writeAll (K : Params) (ws : List RegWrite) (s : State) : State :=
  ws.foldl (fun t w => devWrite K w.axis w.reg w.value t) s

/-- Step 1 of `BUS_READ a, r` (40_bus_transport.md R136): the frame that addresses `r`. -/
def busReadFirst (K : Params) (a : Axis) (r : RegAddr) (s : State) : State :=
  { busXfer K a (readAddress r) 0#32 s with readPend := some ⟨a, r⟩ }

/-- Step 2 of `BUS_READ a, r`: the frame whose data, `frameAnswer`, is the value read (40 R136, R138). -/
def busReadSecond (K : Params) (a : Axis) (r : RegAddr) (s : State) : State :=
  { busXfer K a (readAddress r) 0#32 s with readPend := none }

/-- The next of the two steps of a foreground read, with its value at the second (40_bus_transport.md
R137). The foreground has one open read: DESIGN CHOICE (log 26), a read of the same axis and register that
was issued by itself counts as the first frame of this one, and any other open read is given up. -/
def busReadStep (K : Params) (a : Axis) (r : RegAddr) (s : State) : Option Word × State :=
  if s.readPend = some ⟨a, r⟩ then (some (frameAnswer K a s), busReadSecond K a r s)
  else (none, busReadFirst K a r s)

/-! ### The ring -/

/-- `Slot[i] <- g` (00_scope.md R14). -/
def writeSlot (i : Word) (g : Segment) (s : State) : State :=
  { s with slots := s.slots.set i.toNat g }

/-- What `RB_TRY_ENQUEUE` returns (41_ring_buffer.md R152). -/
def tryEnqueueResult (s : State) : Option Word := if s.full then none else some s.head

/-- `RB_TRY_ENQUEUE` (41_ring_buffer.md R152). -/
def rbTryEnqueue (s : State) : Except FaultCode State :=
  atomically (fun s => .ok (if s.full then s else { s with prodSlot := some s.head })) s

/-- The indices after a commit (41_ring_buffer.md R153). -/
def commitIndices (K : Params) (s : State) : State :=
  let s1 := { s with head := ringNext K s.head }
  let s2 := if s1.head = s1.tail then { s1 with full := true } else s1
  { s2 with prodSlot := none }

/-- `RB_COMMIT` (41_ring_buffer.md R153). -/
def rbCommit (K : Params) (s : State) : Except FaultCode State :=
  atomically (fun s =>
    if s.full ∨ s.prodSlot ≠ some s.head then .error .rbOverflow else .ok (commitIndices K s)) s

/-- What `RB_PEEK_READY` returns (41_ring_buffer.md R154). -/
def rbPeekReady (s : State) : Option Word := if s.ringEmpty then none else some s.tail

/-- `RB_DISCARD` (41_ring_buffer.md R155). -/
def rbDiscard (K : Params) (s : State) : Except FaultCode State :=
  if s.ringEmpty then .error .rbUnderflow
  else .ok { s with tail := ringNext K s.tail, full := false }

/-! ### The planner -/

/-- `PLAN_GET` (45_init_and_interfaces.md R261). -/
def planGet (s : State) : Option Block := s.plan.head?

/-- `PLAN_DISCARD` (45_init_and_interfaces.md R262). -/
def planDiscard (s : State) : State := emit .planDiscard { s with plan := s.plan.tail }

end Sys2Proof.Machine
end

