-- ==== Sys2Proof/Machine/Bus.lean ====
section
/-! DEFINITION. BUS_WRITE and BUS_READ issued by themselves (40_bus_transport.md R134, R136). -/

namespace Sys2Proof.Machine

/-- BUS_WRITE: one frame; the status byte goes back to the issuer (40_bus_transport.md R134). -/
def busWriteOp (K : Params) (a : Axis) (r : RegAddr) (v : Word) (s : State) : State :=
  unitStep (fun s => .ok { busWrite K a r v s with ret := .status (frameStatus K a s) }) s

/-- BUS_READ, its first step: the frame that addresses the register (40_bus_transport.md R136). A read
already open is given up (log 12). While HOME or ENDSTOP is in progress the open read passes to the command's
next poll where there is one, and then no value is returned: DESIGN CHOICE (log 26). -/
def busReadOp (K : Params) (a : Axis) (r : RegAddr) (s : State) : State :=
  unitStep (fun s => .ok (busReadFirst K a r s)) s

/-- The second step of a BUS_READ issued by itself: the value goes back to the issuer (40 R136 to R138). -/
def finishRead (K : Params) (p : ReadPend) (s : State) : State :=
  { busReadSecond K p.axis p.reg s with ret := .data (frameAnswer K p.axis s) }

/-- The meaning of BUS_WRITE. -/
def execBusWrite (a : Axis) (r : RegAddr) (v : Word) (s : State) : Result :=
  .next (busWriteOp Config.params a r v s)

/-- The meaning of BUS_READ. -/
def execBusRead (a : Axis) (r : RegAddr) (s : State) : Result :=
  .next (busReadOp Config.params a r s)

end Sys2Proof.Machine
end

