-- ==== Sys2Proof/Machine/Calc.lean ====
section
/-! DEFINITION. The segment calculator (42_segment_calculator.md). -/

namespace Sys2Proof.Machine

/-- `ratio`, the axis's share of the step events in Q16 (42_segment_calculator.md R175). -/
def axisRatio (steps eventCount : Word) : Word := (steps <<< Config.q) / eventCount

/-- The rescaled acceleration with its floor (42_segment_calculator.md R176). -/
def axisAcc (K : Params) (a : Axis) (ratio accel : Word) : Word :=
  let acc := ((ratio >>> Config.accShift) * accel) >>> Config.q
  if acc = 0#32 then K.accMin.get a else acc

/-- A rate rescaled by the axis ratio (42_segment_calculator.md R177). -/
def axisSpeed (ratio rate : Word) : Word := (ratio * rate) >>> Config.q

/-- The final speed's floor, then its ceiling where the axis has one (42_segment_calculator.md R177). -/
def boundFinal (K : Params) (a : Axis) (ve : Word) : Word :=
  match K.vstopMax.get a with
  | none => umax ve (K.vstopMin.get a)
  | some m => umin (umax ve (K.vstopMin.get a)) m

/-- The speeds and the acceleration of one axis: `(acc, vs, vm, ve)`. -/
structure AxisProfile where
  acc : Word
  vstart : Word
  vmax : Word
  vstop : Word
  deriving DecidableEq, Repr

/-- `AxisProfile(b, a)`: carried from the snapshot where the axis has no steps, computed otherwise
(42_segment_calculator.md R174 to R177). -/
def axisProfile (K : Params) (snap : Snapshot) (b : Block) (a : Axis) : AxisProfile :=
  if b.steps.get a = 0#32 then
    ⟨snap.acc.get a, snap.vstart.get a, snap.vmax.get a, snap.vstop.get a⟩
  else
    let ratio := axisRatio (b.steps.get a) b.eventCount
    let vs := axisSpeed ratio b.initialRate
    let vm := axisSpeed ratio b.nominalRate
    let ve := boundFinal K a (axisSpeed ratio b.finalRate)
    ⟨axisAcc K a ratio b.accel, if vm < vs then vm else vs, vm, ve⟩

/-- The direction of a moving axis is negative (42_segment_calculator.md R178). -/
def movesNegative (dirmult : PerAxis Sign) (b : Block) (a : Axis) : Bool :=
  xor (b.dirBits.getLsbD (axisIndex a)) (dirmult.get a == .minus)

/-- The position counter of an axis after the block (42_segment_calculator.md R178). -/
def movedPos (dirmult : PerAxis Sign) (pos : PerAxis Word) (b : Block) (a : Axis) : Word :=
  if movesNegative dirmult b a then pos.get a - b.steps.get a else pos.get a + b.steps.get a

/-- `AxisTarget(b, a)`, the target's value (42_segment_calculator.md R174, R178). -/
def axisTarget (s : State) (b : Block) (a : Axis) : Word :=
  if b.steps.get a = 0#32 then s.snap.target.get a else movedPos s.dirmult s.pos b a

/-- `AxisTarget(b, a)`, the state: the counter of a moving axis is updated in a critical section
(42_segment_calculator.md R178). -/
def updatePos (b : Block) (s : State) (a : Axis) : Except FaultCode State :=
  if b.steps.get a = 0#32 then .ok s
  else atomically (fun t => .ok { t with pos := t.pos.set a (movedPos t.dirmult t.pos b a) }) s

/-- One phase of the duration: exact, floored, 0 for a zero divisor (42_segment_calculator.md R181). -/
def phaseTime (K : Params) (delta divisor : Nat) : Nat :=
  if divisor = 0 then 0 else delta * K.timeUnit / divisor

/-- `Duration(b)` (42_segment_calculator.md R181). -/
def duration (K : Params) (b : Block) : Word :=
  let dA := satsub b.nominalRate.toNat b.initialRate.toNat
  let dD := satsub b.nominalRate.toNat b.finalRate.toNat
  let span := satsub b.decelAfter.toNat b.accelUntil.toNat
  let tA := phaseTime K dA b.accel.toNat
  let tC := phaseTime K span b.nominalRate.toNat
  let tD := phaseTime K dD b.accel.toNat
  clamp32 ((tA + tC + tD) * K.corrNum / K.corrDen)

/-- Some axis has steps (42_segment_calculator.md R170, R172). -/
def Block.moves (b : Block) : Bool := Axis.all.any fun a => b.steps.get a != 0#32

/-- The segment CALC builds from a block (42_segment_calculator.md R170). -/
def buildSegment (K : Params) (s : State) (b : Block) : Segment where
  acc := .ofFn fun a => (axisProfile K s.snap b a).acc
  vstart := .ofFn fun a => (axisProfile K s.snap b a).vstart
  vmax := .ofFn fun a => (axisProfile K s.snap b a).vmax
  vstop := .ofFn fun a => (axisProfile K s.snap b a).vstop
  target := .ofFn fun a => axisTarget s b a
  zflag := b.steps.get .z != 0#32
  duration := duration K b
  ready := true

/-- `SnapshotUpdate`: this segment's per-axis values (42_segment_calculator.md R179). -/
def Segment.snapshot (g : Segment) : Snapshot where
  acc := g.acc
  vstart := g.vstart
  vmax := g.vmax
  vstop := g.vstop
  target := g.target

/-- A slot was reserved and a block is there: compute, publish, release the block
(42_segment_calculator.md R170, R183). `i` is the reserved slot. -/
def calcBlock (K : Params) (i : Word) (b : Block) (s : State) : Except FaultCode State := do
  if Block.moves b ∧ b.eventCount = 0#32 then .error .badBlock
  else
    let g := buildSegment K s b
    let s1 ← Axis.all.foldlM (updatePos b) s
    let s2 := { writeSlot i g s1 with snap := g.snapshot }
    let s3 ← rbCommit K s2
    .ok (planDiscard s3)

/-- `Calc()` (42_segment_calculator.md R170, R171). -/
def calcBody (K : Params) (s : State) : Except FaultCode State := do
  let s1 ← rbTryEnqueue s
  match tryEnqueueResult s, planGet s1 with
  | some i, some b => calcBlock K i b s1
  | _, _ => .ok { s1 with prodSlot := none }

/-- The CALC command: one atomic foreground step (42_segment_calculator.md R184). -/
def calcCommand (K : Params) (s : State) : State := hostCommand false (calcBody K) s

/-- The meaning of CALC. -/
def execCalc (s : State) : Result := .next (calcCommand Config.params s)

end Sys2Proof.Machine
end

