-- ==== Sys2Proof/Machine/Endstop.lean ====
section
/-! DEFINITION. The endstop query (45_init_and_interfaces.md R257). -/

namespace Sys2Proof.Machine

/-- The issue step of `Endstop(a, m)` (45_init_and_interfaces.md R257). No read of the foreground is open
then (log 12). -/
def endstopBody (a : Axis) (s : State) : Except FaultCode State :=
  .ok { s with fgOp := some .endstop, endCall := some ⟨a, s.arg0⟩, readPend := none }

/-- The ENDSTOP command. -/
def endstopCommand (a : Axis) (s : State) : State := hostCommand false (endstopBody a) s

/-- 1 for hit, 0 for open (45_init_and_interfaces.md R257). -/
def endstopHit (v m : Word) : Word := if v &&& m ≠ 0#32 then 1#32 else 0#32

/-- One foreground step of ENDSTOP: a frame of the read, and the result with the second
(45_init_and_interfaces.md R257). -/
def endstopStep (K : Params) (c : EndCall) (s : State) : State :=
  match busReadStep K c.axis (K.devreg .rampStat) s with
  | (none, s') => s'
  | (some v, s') => { s' with result := endstopHit v c.mask, fgOp := none, endCall := none }

/-- The meaning of ENDSTOP: its issue step; the two frames are steps of the foreground unit. -/
def execEndstop (a : Axis) (s : State) : Result := .next (endstopCommand a s)

end Sys2Proof.Machine
end

