-- ==== Sys2Proof/Machine/Homing.lean ====
section
/-! DEFINITION. The homing sequencer (44_homing.md). -/

namespace Sys2Proof.Machine

/-- The stall threshold: inverse of the homing speed, raised by 10% (44_homing.md R222, R223). -/
def stallThreshold (K : Params) (vh : Word) : Word :=
  let t0 := K.tstepK / vh
  t0 + t0 / 10#32

/-- `HomeParams(a, f)` (44_homing.md R222). -/
def homeParamsOf (K : Params) (a : Axis) (f : Word) : Except FaultCode HomeParams :=
  let vh := K.toVel a f
  let bump := K.toSteps a (K.bumpDist.get a)
  let retract := if K.homeDir.get a = .minus then bump else 0#32 - bump
  let seek := if K.homeDir.get a = .minus then K.modeVelNeg else K.modeVelPos
  if K.stallHoming.get a then
    if vh = 0#32 then .error .homeZeroSpeed
    else .ok ⟨vh, retract, seek, stallThreshold K vh⟩
  else .ok ⟨vh, retract, seek, 0#32⟩

/-- The first phase of an axis's sub-protocol (44_homing.md R221). -/
def firstPhase (K : Params) (a : Axis) : HomePhase :=
  if K.stallHoming.get a then .stSmoothOff else .swEnable

/-- `Home(a, f)`, the issue step (44_homing.md R221). No read of the foreground is open then (log 12). -/
def homeBody (K : Params) (a : Axis) (s : State) : Except FaultCode State := do
  let p ← homeParamsOf K a s.arg0
  .ok { s with
    fgOp := some .home
    homeAxis := some a
    homeParams := some p
    homePhase := firstPhase K a
    readPend := none }

/-- The HOME command. -/
def homeCommand (K : Params) (a : Axis) (s : State) : State := hostCommand false (homeBody K a) s

/-- `home_phase <- p`. -/
def toPhase (p : HomePhase) (s : State) : State := { s with homePhase := p }

/-- A poll of the status register: the next frame of the read, and after the second frame the test of the
zero-velocity bit (44_homing.md R220, R229). -/
def homePoll (K : Params) (a : Axis) (stopped moving : HomePhase) (s : State) : State :=
  match busReadStep K a (K.devreg .rampStat) s with
  | (none, s') => s'
  | (some v, s') => toPhase (if v &&& K.vzeroMask ≠ 0#32 then stopped else moving) s'

/-- The atomic update `pos[a] <- v` of a homing phase (44_homing.md R220). -/
def homeSetPos (a : Axis) (v : Word) (s : State) : State :=
  settle s (atomically (fun t => .ok { t with pos := t.pos.set a v }) s)

/-- `H_DONE`: the command is over (44_homing.md R220). -/
def homeFinish (a : Axis) (p : HomeParams) (s : State) : State :=
  { homeSetPos a p.retract s with
    fgOp := none
    homeAxis := none
    homeParams := none
    homePhase := .idle }

/-- The phase after a successful retract poll, by sub-protocol (44_homing.md R220). -/
def afterRetract (K : Params) (a : Axis) : HomePhase :=
  if K.stallHoming.get a then .stSmoothOn else .swRearm

/-- One foreground step of HOME on axis `a`: the row of its phase in 44_homing.md R220. -/
def homeStep (K : Params) (a : Axis) (p : HomeParams) (s : State) : State :=
  match s.homePhase with
  | .idle => s
  | .swEnable => toPhase .swVmax (emit (.driverEnable a) s)
  | .swVmax => toPhase .swMode (devWrite K a .vmax p.vh s)
  | .swMode => toPhase .swArm (devWrite K a .rampmode p.seek s)
  | .swArm => toPhase .seekPoll (devWrite K a .swMode (K.cfgSwmodeSwitch.get a) s)
  | .stSmoothOff => toPhase .stSens (devWrite K a .gconf (K.cfgGconf.get a &&& ~~~K.smoothMask) s)
  | .stSens => toPhase .stThr (devWrite K a .coolconf (K.stallSens.get a) s)
  | .stThr => toPhase .stArm (devWrite K a .tcoolthrs p.thr s)
  | .stArm => toPhase .stVmax (devWrite K a .swMode (K.cfgSwmodeStall.get a) s)
  | .stVmax => toPhase .stMode (devWrite K a .vmax p.vh s)
  | .stMode => toPhase .seekPoll (devWrite K a .rampmode p.seek s)
  | .seekPoll => homePoll K a .tHold .seekYield s
  | .seekYield => toPhase .seekPoll (emit .yield s)
  | .tHold => toPhase .tZeroAct (devWrite K a .rampmode K.modeHold s)
  | .tZeroAct => toPhase .tZeroTgt (devWrite K a .xactual 0#32 s)
  | .tZeroTgt => toPhase .tPosmode (homeSetPos a 0#32 (devWrite K a .xtarget 0#32 s))
  | .tPosmode => toPhase .tRetract (devWrite K a .rampmode K.modePosition s)
  | .tRetract => toPhase .retPoll (devWrite K a .xtarget p.retract s)
  | .retPoll => homePoll K a (afterRetract K a) .retYield s
  | .retYield => toPhase .retPoll (emit .yield s)
  | .swRearm => toPhase .swPosmode (devWrite K a .swMode (K.cfgSwmodeSwitch.get a) s)
  | .swPosmode => toPhase .done (devWrite K a .rampmode K.modePosition s)
  | .stSmoothOn => toPhase .done (devWrite K a .gconf (K.cfgGconf.get a ||| K.smoothMask) s)
  | .done => homeFinish a p s

/-- The meaning of HOME: its issue step; the phases are steps of the foreground unit (44_homing.md
R220, R221). -/
def execHome (a : Axis) (s : State) : Result := .next (homeCommand Config.params a s)

end Sys2Proof.Machine
end

