-- ==== Sys2Proof/Machine/Init.lean ====
section
/-! DEFINITION. The device initializer (45_init_and_interfaces.md R250, R251). -/

namespace Sys2Proof.Machine

/-- The eight register writes of INIT to one chip (45_init_and_interfaces.md R250). -/
def initWritesFor (K : Params) (a : Axis) : List RegWrite :=
  [⟨a, .iholdIrun, K.cfgIholdIrun.get a⟩,
    ⟨a, .rampmode, K.modePosition⟩,
    ⟨a, .v1, 0#32⟩,
    ⟨a, .amax, K.amaxCeil⟩,
    ⟨a, .vmax, K.vmaxCeil⟩,
    ⟨a, .chopconf, K.cfgChopconf.get a⟩,
    ⟨a, .gconf, K.cfgGconf.get a⟩,
    ⟨a, .swMode, K.cfgSwmodeInit.get a⟩]

/-- The 32 register writes of INIT, axis by axis (45_init_and_interfaces.md R250). -/
def initWrites (K : Params) : List RegWrite := Axis.all.flatMap (initWritesFor K)

/-- The timer's configuration and the interrupt enable (45_init_and_interfaces.md R250). -/
def startTimer (K : Params) (s : State) : State :=
  emit (.timerSet K.ocrInit)
    { s with
      tmr := { s.tmr with ctc := true, prescaler := some K.prescaler, ocr := K.ocrInit, tie := true } }

/-- `Init()` (45_init_and_interfaces.md R250). -/
def initBody (K : Params) (s : State) : Except FaultCode State :=
  if s.initDone then .error .reinit
  else .ok { startTimer K (writeAll K (initWrites K) s) with initDone := true }

/-- The INIT command, the only one admitted before `init_done` (45_init_and_interfaces.md R250). -/
def initCommand (K : Params) (s : State) : State := hostCommand true (initBody K) s

/-- The meaning of INIT. -/
def execInit (s : State) : Result := .next (initCommand Config.params s)

end Sys2Proof.Machine
end

