-- ==== Sys2Proof/Machine/Interrupt.lean ====
section
/-! DEFINITION. The dispatch interrupt (43_dispatch_interrupt.md) and the timer's compare event
(60_exceptions.md R278). -/

namespace Sys2Proof.Machine

/-- `Rearm()` (43_dispatch_interrupt.md R201). -/
def rearm (s : State) : State :=
  let c := umin s.countdown Config.chunkMax
  emit (.timerSet (c.truncate 16))
    { s with tmr := { s.tmr with ocr := c.truncate 16 }, countdown := s.countdown - c }

/-- The axes of phases 1 and 2 of a dispatch (43_dispatch_interrupt.md R204). -/
def profileAxes (zflag : Bool) : List Axis := if zflag then [.x, .y, .z, .e] else [.x, .y, .e]

/-- The axes of phase 3, in target order (43_dispatch_interrupt.md R204). -/
def targetAxes (zflag : Bool) : List Axis := if zflag then [.z, .x, .y, .e] else [.x, .y, .e]

/-- Phase 1 for one axis: cruise speed, acceleration, deceleration (43_dispatch_interrupt.md R204). -/
def cruiseWrites (g : Segment) (a : Axis) : List RegWrite :=
  [⟨a, .vmax, g.vmax.get a⟩, ⟨a, .amax, g.acc.get a⟩, ⟨a, .dmax, g.acc.get a⟩]

/-- Phase 2 for one axis: initial and final speed (43_dispatch_interrupt.md R204). -/
def endpointWrites (g : Segment) (a : Axis) : List RegWrite :=
  [⟨a, .vstart, g.vstart.get a⟩, ⟨a, .vstop, g.vstop.get a⟩]

/-- `Dispatch(i)` as the list of its register writes (43_dispatch_interrupt.md R204). -/
def dispatchWrites (g : Segment) : List RegWrite :=
  (profileAxes g.zflag).flatMap (cruiseWrites g)
    ++ (profileAxes g.zflag).flatMap (endpointWrites g)
    ++ (targetAxes g.zflag).map fun a => ⟨a, .xtarget, g.target.get a⟩

/-- State Dispatching: the writes, then countdown, readiness flag and discard (43_dispatch_interrupt.md
R203 to R205). -/
def dispatchTail (K : Params) (s : State) : Except FaultCode State :=
  if s.busy then .error .busContention
  else
    let i := s.tail
    let g := s.slot i
    let s1 := writeAll K (dispatchWrites g) s
    let s2 := { s1 with countdown := g.duration }
    rbDiscard K (writeSlot i { g with ready := false } s2)

/-- What the handler does in its state (43_dispatch_interrupt.md R200 to R205). -/
def handlerBody (K : Params) (s : State) : Except FaultCode State :=
  match s.handlerState with
  | .waiting => .ok (rearm s)
  | .idle => .ok { s with countdown := K.pollTicks }
  | .dispatching => dispatchTail K s

/-- `OnTimerCompare()` (43_dispatch_interrupt.md R200): entry, body, return. -/
def onTimerCompare (K : Params) (s : State) : Except FaultCode State := do
  let s' ← handlerBody K (enterInterrupt s)
  .ok (leaveInterrupt s')

/-- The interrupt step: the handler where the interrupt may be taken; otherwise it stays pending and
nothing happens (60_exceptions.md R279; log 19). -/
def interruptStep (K : Params) (s : State) : State :=
  if s.interruptTakeable then settle s (onTimerCompare K s) else s

/-- `TimerCompareEvent()` where it is enabled (60_exceptions.md R278). -/
def timerStep (s : State) : State :=
  if s.timerRuns then { s with tmr := { s.tmr with pending := true } } else s

/-- The meaning of TIMER_COMPARE. -/
def execTimerCompare (s : State) : Result := .next (interruptStep Config.params s)

end Sys2Proof.Machine
end

