-- ==== Sys2Proof/Machine/Planner.lean ====
section
/-! DEFINITION. PLAN_GET and PLAN_DISCARD issued by themselves (45_init_and_interfaces.md R261, R262). -/

namespace Sys2Proof.Machine

/-- PLAN_GET issued by itself (45_init_and_interfaces.md R261). -/
def planGetOp (s : State) : State := unitStep (fun s => .ok { s with ret := .block (planGet s) }) s

/-- PLAN_DISCARD issued by itself (45_init_and_interfaces.md R262). -/
def planDiscardOp (s : State) : State := unitStep (fun s => .ok (planDiscard s)) s

/-- The meaning of PLAN_GET. -/
def execPlanGet (s : State) : Result := .next (planGetOp s)

/-- The meaning of PLAN_DISCARD. -/
def execPlanDiscard (s : State) : Result := .next (planDiscardOp s)

end Sys2Proof.Machine
end

