-- ==== Sys2Proof/Machine/Position.lean ====
section
/-! DEFINITION. The position commands (45_init_and_interfaces.md R255, R256). -/

namespace Sys2Proof.Machine

/-- The SETPOS command: `pos[a] <- i32(ARG0)` in a critical section (45_init_and_interfaces.md R255). -/
def setposCommand (a : Axis) (s : State) : State :=
  hostCommand false (atomically fun t => .ok { t with pos := t.pos.set a t.arg0 }) s

/-- The GETPOS command: `RESULT <- u32(pos[a])` in a critical section (45_init_and_interfaces.md R256). -/
def getposCommand (a : Axis) (s : State) : State :=
  hostCommand false (atomically fun t => .ok { t with result := t.pos.get a }) s

/-- The meaning of SETPOS. -/
def execSetpos (a : Axis) (s : State) : Result := .next (setposCommand a s)

/-- The meaning of GETPOS. -/
def execGetpos (a : Axis) (s : State) : Result := .next (getposCommand a s)

end Sys2Proof.Machine
end

