-- ==== Sys2Proof/Machine/Ring.lean ====
section
/-! DEFINITION. The ring buffer operations (41_ring_buffer.md R152 to R158). -/

namespace Sys2Proof.Machine

/-- RB_COUNT issued by the host (41_ring_buffer.md R158). -/
def rbCountCommand (K : Params) (s : State) : State :=
  hostCommand false (fun s => .ok { s with result := ringCount K s.head s.tail s.full }) s

/-- RB_TRY_ENQUEUE issued by itself (41_ring_buffer.md R152). -/
def rbTryEnqueueOp (s : State) : State :=
  unitStep (fun s => do
    let s' ← rbTryEnqueue s
    .ok { s' with ret := .slot (tryEnqueueResult s) }) s

/-- RB_COMMIT issued by itself (41_ring_buffer.md R153). -/
def rbCommitOp (K : Params) (s : State) : State := unitStep (rbCommit K) s

/-- RB_PEEK_READY issued by itself (41_ring_buffer.md R154). -/
def rbPeekReadyOp (s : State) : State :=
  unitStep (fun s => .ok { s with ret := .slot (rbPeekReady s) }) s

/-- RB_DISCARD issued by itself (41_ring_buffer.md R155). -/
def rbDiscardOp (K : Params) (s : State) : State := unitStep (rbDiscard K) s

/-- The meaning of RB_COUNT. -/
def execRbCount (s : State) : Result := .next (rbCountCommand Config.params s)

/-- The meaning of RB_TRY_ENQUEUE. -/
def execRbTryEnqueue (s : State) : Result := .next (rbTryEnqueueOp s)

/-- The meaning of RB_COMMIT. -/
def execRbCommit (s : State) : Result := .next (rbCommitOp Config.params s)

/-- The meaning of RB_PEEK_READY. -/
def execRbPeekReady (s : State) : Result := .next (rbPeekReadyOp s)

/-- The meaning of RB_DISCARD. -/
def execRbDiscard (s : State) : Result := .next (rbDiscardOp Config.params s)

end Sys2Proof.Machine
end

