-- ==== Sys2Proof/Machine/Section.lean ====
section
/-! DEFINITION. CS_ENTER, CS_EXIT and IDLE_YIELD issued by themselves (45_init_and_interfaces.md R258 to
R260). -/

namespace Sys2Proof.Machine

/-- CS_ENTER issued by itself (45_init_and_interfaces.md R258). -/
def csEnterOp (s : State) : State := unitStep (fun s => .ok (csOpen s)) s

/-- CS_EXIT issued by itself (45_init_and_interfaces.md R259). -/
def csExitOp (s : State) : State := unitStep csClose s

/-- IDLE_YIELD issued by itself (45_init_and_interfaces.md R260). -/
def idleYieldOp (s : State) : State := unitStep (fun s => .ok (emit .yield s)) s

/-- The meaning of CS_ENTER. -/
def execCsEnter (s : State) : Result := .next (csEnterOp s)

/-- The meaning of CS_EXIT. -/
def execCsExit (s : State) : Result := .next (csExitOp s)

/-- The meaning of IDLE_YIELD. -/
def execIdleYield (s : State) : Result := .next (idleYieldOp s)

end Sys2Proof.Machine
end

