-- ==== Sys2Proof/Machine/Dispatch.lean ====
section
/-! DEFINITION. The meaning of every operation of 30_encoding.md R103, one arm each. -/

namespace Sys2Proof.Machine

def exec (i : Instr) (s : State) : Host.Outcome State Fault Refusal :=
  match i with
  | .init => Sys2Proof.Machine.execInit s
  | .calculate => Sys2Proof.Machine.execCalc s
  | .home ax => Sys2Proof.Machine.execHome ax s
  | .setpos ax => Sys2Proof.Machine.execSetpos ax s
  | .getpos ax => Sys2Proof.Machine.execGetpos ax s
  | .rbCount => Sys2Proof.Machine.execRbCount s
  | .endstop ax => Sys2Proof.Machine.execEndstop ax s
  | .busWrite ax reg data => Sys2Proof.Machine.execBusWrite ax reg data s
  | .busRead ax reg => Sys2Proof.Machine.execBusRead ax reg s
  | .rbTryEnqueue => Sys2Proof.Machine.execRbTryEnqueue s
  | .rbCommit => Sys2Proof.Machine.execRbCommit s
  | .rbPeekReady => Sys2Proof.Machine.execRbPeekReady s
  | .rbDiscard => Sys2Proof.Machine.execRbDiscard s
  | .csEnter => Sys2Proof.Machine.execCsEnter s
  | .csExit => Sys2Proof.Machine.execCsExit s
  | .idleYield => Sys2Proof.Machine.execIdleYield s
  | .timerCompare => Sys2Proof.Machine.execTimerCompare s
  | .planGet => Sys2Proof.Machine.execPlanGet s
  | .planDiscard => Sys2Proof.Machine.execPlanDiscard s

end Sys2Proof.Machine
end

