-- ==== Sys2Proof/Machine/Agents.lean ====
section
/-! DEFINITION. One step of each agent (10_state.md R20, R21; 60_exceptions.md R280): the host's accesses
to the register window (20_memory.md R72, R73), the issue of a command word (30_encoding.md R104), the
foreground unit, the timer, the interrupt unit and the external reset. -/

namespace Sys2Proof.Machine

/-- The access is 4 bytes wide at one of the five offsets (20_memory.md R73). -/
def legalAccess (addr n : Nat) : Bool :=
  n == 4 && (addr == 0x00 || addr == 0x04 || addr == 0x08 || addr == 0x0C || addr == 0x10)

/-- The "read" column of 20_memory.md R72. -/
def windowRead (s : State) (addr : Nat) : Word :=
  if addr = 0x04 then s.arg0
  else if addr = 0x0C then s.result
  else if addr = 0x10 then s.status
  else 0#32

/-- An access R73 does not admit: `F_ILLEGAL_ACCESS`, nothing more in a faulted state (60_exceptions.md
R272). -/
def illegalAccess (s : State) : State := unitStep (fun _ => .error .illegalAccess) s

/-- `MemRead(addr, n)`; the value read goes to the host (20_memory.md R73; log 14). -/
def hostRead (addr n : Nat) (s : State) : State :=
  if legalAccess addr n then { s with hostData := windowRead s addr } else illegalAccess s

/-- A command word that R104 does not admit: `F_BUSY` first, then `F_ILLEGAL_COMMAND`. -/
def rejectCommand (s : State) : State :=
  unitStep (fun s => .error (if s.fgOp.isSome then .busy else .illegalCommand)) s

/-- A write of command word `w` to `CMD` (30_encoding.md R104, R107). The checks on the state come with
the command (`hostCommand`). -/
def issueCommand (w : Word) (s : State) : Result :=
  match decode w 0#32 with
  | .ok i => if i.opcode.hostIssuable then exec i s else .next (rejectCommand s)
  | .error _ => .next (rejectCommand s)

/-- `MemWrite(addr, n, v)` (20_memory.md R72, R73). -/
def hostWrite (addr n : Nat) (v : Word) (s : State) : Result :=
  if legalAccess addr n then
    if addr = 0x00 then issueCommand v s
    else if addr = 0x04 then .next { s with arg0 := v }
    else .next s
  else .next (illegalAccess s)

/-- The host appends a block to the planner queue (10_state.md R44), not in a faulted state (10_state.md
R39; log 16). -/
def hostAppend (b : Block) (s : State) : State :=
  if s.faulted then s else { s with plan := s.plan ++ [b] }

/-- The next step of the operation in progress, without the check for quiescence (10_state.md R25). A
read issued by itself goes on where no command runs (log 12), and passes to the command where one runs
(DESIGN CHOICE, log 26); a state with an operation but without its operands, which no step reaches, does not
move (log 21). -/
def foregroundBody (K : Params) (s : State) : State :=
  match s.fgOp with
  | none =>
    match s.readPend with
    | some p => finishRead K p s
    | none => s
  | some .home =>
    match s.homeAxis, s.homeParams with
    | some a, some p => homeStep K a p s
    | _, _ => s
  | some .endstop =>
    match s.endCall with
    | some c => endstopStep K c s
    | none => s
  | some _ => s

/-- A step of the foreground unit; none in a faulted state (60_exceptions.md R272). -/
def foregroundStep (K : Params) (s : State) : State :=
  if s.faulted then s else foregroundBody K s

/-- Power-on or external reset: every element of the block at its reset value (70_reset_and_hazards.md
R300). The choices still to come, the count of free values and what the host has read are the world
outside (log 17). -/
def resetStep (K : Params) (s : State) : State :=
  { State.resetWith K with fresh := s.fresh, agenda := s.agenda, hostData := s.hostData }

/-- One agent's step; an action that is not enabled changes nothing (60_exceptions.md R280; log 3). -/
def act (α : Action) (s : State) : Result :=
  match α with
  | .hostRead addr n => .next (hostRead addr n s)
  | .hostWrite addr n v => hostWrite addr n v s
  | .hostAppend b => .next (hostAppend b s)
  | .foreground => .next (foregroundStep Config.params s)
  | .timerEvent => .next (timerStep s)
  | .interrupt => exec .timerCompare s
  | .reset => .next (resetStep Config.params s)

/-- The staged operation word runs by itself; the port is emptied first (log 4). -/
def runStaged (o : StagedOp) (s : State) : Result :=
  match decode o.word o.data with
  | .ok i => exec i { s with opPort := none }
  | .error _ => .fault (.noSuchOperation o.word)

/-- The next agent's step: the first choice that stands in the state, or a free one (60_exceptions.md
R280; log 3). -/
def runAgents (s : State) : Result :=
  match s.agenda with
  | α :: rest => act α { s with agenda := rest }
  | [] => act (Config.schedule s.fresh) { s with fresh := s.fresh + 1 }

/-- One step of the machine: a staged operation word where there is one, else the next agent's step. -/
def runStep (s : State) : Result :=
  match s.opPort with
  | some o => runStaged o s
  | none => runAgents s

/-- The conditions under which the interrupt unit runs its handler (60_exceptions.md R279), for an event
word placed to run next (log 4). -/
def raiseInterrupt (s : State) : State :=
  { s with tmr := { s.tmr with pending := true, tie := true }, gie := true, csDepth := 0, inIsr := false }

/-- `s` with an instruction's command word and data operand where the next step takes it: a host command
as a write to `CMD`, the event as a pending interrupt, an internal operation in the staged port; a word
that is no operation as a write to `CMD` (log 4). -/
def placeWord (w data : Word) (s : State) : State :=
  match decode w data with
  | .ok i =>
    if i.opcode.hostIssuable then
      { s with opPort := none, agenda := .hostWrite 0x00 4 w :: s.agenda }
    else if i.opcode = .timerCompare then
      { raiseInterrupt s with opPort := none, agenda := .interrupt :: s.agenda }
    else { s with opPort := some ⟨w, data⟩ }
  | .error _ => { s with opPort := none, agenda := .hostWrite 0x00 4 w :: s.agenda }

end Sys2Proof.Machine
end

