-- ==== Sys2Proof/Machine/HostLines.lean ====
section
/-! DEFINITION. The host's command lines and pseudo-instructions (30_encoding.md R110, R111), as the host
accesses they stand for. -/

namespace Sys2Proof.Machine

/-- A line of 30_encoding.md R110 or a pseudo-instruction of R111. The value of SETPOS is the bits of its
signed number. -/
inductive HostLine where
  | init
  | calc
  | home (ax : Axis) (f : Word)
  | setpos (ax : Axis) (v : Word)
  | getpos (ax : Axis)
  | rbCount
  | endstop (ax : Axis) (m : Word)
  | arg (v : Word)
  | readResult
  | waitIdle
  | homew (ax : Axis) (f : Word)
  deriving DecidableEq, Repr

/-- `ax << 22`, with the values 0 to 3 of X, Y, Z, E (30_encoding.md R110). -/
def axisBits (ax : Axis) : Word := BitVec.ofNat 32 (axisIndex ax) <<< 22

/-- `MemWrite(0x00, 4, w)`. -/
def cmdWrite (w : Word) : Action := .hostWrite 0x00 4 w

/-- `MemWrite(0x04, 4, v)`. -/
def argWrite (v : Word) : Action := .hostWrite 0x04 4 v

/-- `t <- MemRead(0x10, 4)`, the body of the loop of WAIT_IDLE (30_encoding.md R111). -/
def pollStatus : Action := .hostRead 0x10 4

/-- The host accesses of a line, in order; of a loop, its body once (30_encoding.md R110, R111). -/
def HostLine.expand : HostLine → List Action
  | .init => [cmdWrite 0x01000000#32]
  | .calc => [cmdWrite 0x02000000#32]
  | .home ax f => [argWrite f, cmdWrite (0x03000000#32 ||| axisBits ax)]
  | .setpos ax v => [argWrite v, cmdWrite (0x04000000#32 ||| axisBits ax)]
  | .getpos ax => [cmdWrite (0x05000000#32 ||| axisBits ax)]
  | .rbCount => [cmdWrite 0x06000000#32]
  | .endstop ax m => [argWrite m, cmdWrite (0x07000000#32 ||| axisBits ax)]
  | .arg v => [argWrite v]
  | .readResult => [.hostRead 0x0C 4]
  | .waitIdle => [pollStatus]
  | .homew ax f => [argWrite f, cmdWrite (0x03000000#32 ||| axisBits ax), pollStatus]

/-- The line ends in the loop of WAIT_IDLE (30_encoding.md R111). -/
def HostLine.loops : HostLine → Bool
  | .waitIdle | .homew _ _ => true
  | .init | .calc | .home _ _ | .setpos _ _ | .getpos _ | .rbCount | .endstop _ _ => false
  | .arg _ | .readResult => false

/-- `t[0] = 1`: the loop of WAIT_IDLE goes on with another `pollStatus` (30_encoding.md R111). -/
def waitGoesOn (s : State) : Bool := s.hostData.getLsbD 0

end Sys2Proof.Machine
end

