-- ==== Sys2Proof/Safety.lean ====
section
/-! DEFINITION. The terms in which claims speak of the machine: what a bus frame sends, which states a
step may start in, the queue a ring holds, and the invariants of the state. -/

namespace Sys2Proof.Machine

/-! ### What the outside world sees -/

/-- What an event of the trace sends out, without the draws that come back: the notation
`Frame(a, AB, DOUT)` of 95_test_vectors.md. -/
inductive Sent where
  | frame (a : Axis) (ab : Byte) (dout : Word)
  | driverEnable (a : Axis)
  | yield
  | planDiscard
  | timerSet (ocr : Half)
  deriving DecidableEq, Repr

/-- The sent part of an event. -/
def Event.sent : Event → Sent
  | .frame a ab dout _ _ => .frame a ab dout
  | .driverEnable a => .driverEnable a
  | .yield => .yield
  | .planDiscard => .planDiscard
  | .timerSet c => .timerSet c

/-- The write frame of register `r` of axis `a` with value `v` (40_bus_transport.md R134). -/
def sentWrite (K : Params) (a : Axis) (r : DevReg) (v : Word) : Sent :=
  .frame a (K.writeFlag ||| K.devreg r) v

/-- A read frame of the status register of axis `a` (40_bus_transport.md R136). -/
def sentPoll (K : Params) (a : Axis) : Sent := .frame a (K.devreg .rampStat) 0#32

/-- The frames of a dispatch of segment `g`, in order (43_dispatch_interrupt.md R204). -/
def dispatchSent (K : Params) (g : Segment) : List Sent :=
  (if g.zflag then [Axis.x, .y, .z, .e] else [Axis.x, .y, .e]).flatMap (fun a =>
    [sentWrite K a .vmax (g.vmax.get a), sentWrite K a .amax (g.acc.get a),
      sentWrite K a .dmax (g.acc.get a)])
  ++ (if g.zflag then [Axis.x, .y, .z, .e] else [Axis.x, .y, .e]).flatMap (fun a =>
    [sentWrite K a .vstart (g.vstart.get a), sentWrite K a .vstop (g.vstop.get a)])
  ++ (if g.zflag then [Axis.z, .x, .y, .e] else [Axis.x, .y, .e]).map (fun a =>
    sentWrite K a .xtarget (g.target.get a))

/-- The frames of INIT, in order (45_init_and_interfaces.md R250). -/
def initSent (K : Params) : List Sent :=
  [Axis.x, .y, .z, .e].flatMap fun a =>
    [sentWrite K a .iholdIrun (K.cfgIholdIrun.get a), sentWrite K a .rampmode K.modePosition,
      sentWrite K a .v1 0#32, sentWrite K a .amax K.amaxCeil, sentWrite K a .vmax K.vmaxCeil,
      sentWrite K a .chopconf (K.cfgChopconf.get a), sentWrite K a .gconf (K.cfgGconf.get a),
      sentWrite K a .swMode (K.cfgSwmodeInit.get a)]

/-- The phases of 44_homing.md R220 whose action is one register write: register, value, next phase. -/
def homeWriteRow (K : Params) (a : Axis) (p : HomeParams) :
    HomePhase → Option (DevReg × Word × HomePhase)
  | .swVmax => some (.vmax, p.vh, .swMode)
  | .swMode => some (.rampmode, p.seek, .swArm)
  | .swArm => some (.swMode, K.cfgSwmodeSwitch.get a, .seekPoll)
  | .stSmoothOff => some (.gconf, K.cfgGconf.get a &&& ~~~K.smoothMask, .stSens)
  | .stSens => some (.coolconf, K.stallSens.get a, .stThr)
  | .stThr => some (.tcoolthrs, p.thr, .stArm)
  | .stArm => some (.swMode, K.cfgSwmodeStall.get a, .stVmax)
  | .stVmax => some (.vmax, p.vh, .stMode)
  | .stMode => some (.rampmode, p.seek, .seekPoll)
  | .tHold => some (.rampmode, K.modeHold, .tZeroAct)
  | .tZeroAct => some (.xactual, 0#32, .tZeroTgt)
  | .tZeroTgt => some (.xtarget, 0#32, .tPosmode)
  | .tPosmode => some (.rampmode, K.modePosition, .tRetract)
  | .tRetract => some (.xtarget, p.retract, .retPoll)
  | .swRearm => some (.swMode, K.cfgSwmodeSwitch.get a, .swPosmode)
  | .swPosmode => some (.rampmode, K.modePosition, .done)
  | .stSmoothOn => some (.gconf, K.cfgGconf.get a ||| K.smoothMask, .done)
  | .idle | .swEnable | .seekPoll | .seekYield | .retPoll | .retYield | .done => none

/-- The two phases that poll: where a poll goes when the axis has stopped, and when it still moves
(44_homing.md R220). -/
def homePollRow (K : Params) (a : Axis) : HomePhase → Option (HomePhase × HomePhase)
  | .seekPoll => some (.tHold, .seekYield)
  | .retPoll => some (if K.stallHoming.get a then .stSmoothOn else .swRearm, .retYield)
  | .idle | .swEnable | .swVmax | .swMode | .swArm | .stSmoothOff | .stSens | .stThr => none
  | .stArm | .stVmax | .stMode | .seekYield | .tHold | .tZeroAct | .tZeroTgt | .tPosmode => none
  | .tRetract | .retYield | .swRearm | .swPosmode | .stSmoothOn | .done => none

/-- The polls of one loop, the first `k` of which find the axis moving (44_homing.md R229, R230). -/
def pollsSent (K : Params) (a : Axis) (k : Nat) : List Sent :=
  (List.replicate k [sentPoll K a, sentPoll K a, .yield]).flatten ++ [sentPoll K a, sentPoll K a]

/-- What a homing of axis `a` sends from its first phase to its end, with `k1` seek polls and `k2` retract
polls that find the axis moving (44_homing.md R224, R227, R236; 95 vectors HOME-1 and HOME-2). -/
def homingSent (K : Params) (a : Axis) (p : HomeParams) (k1 k2 : Nat) : List Sent :=
  (if K.stallHoming.get a then
    [sentWrite K a .gconf (K.cfgGconf.get a &&& ~~~K.smoothMask),
      sentWrite K a .coolconf (K.stallSens.get a), sentWrite K a .tcoolthrs p.thr,
      sentWrite K a .swMode (K.cfgSwmodeStall.get a), sentWrite K a .vmax p.vh,
      sentWrite K a .rampmode p.seek]
  else
    [.driverEnable a, sentWrite K a .vmax p.vh, sentWrite K a .rampmode p.seek,
      sentWrite K a .swMode (K.cfgSwmodeSwitch.get a)])
  ++ pollsSent K a k1
  ++ [sentWrite K a .rampmode K.modeHold, sentWrite K a .xactual 0#32,
    sentWrite K a .xtarget 0#32, sentWrite K a .rampmode K.modePosition,
    sentWrite K a .xtarget p.retract]
  ++ pollsSent K a k2
  ++ (if K.stallHoming.get a then [sentWrite K a .gconf (K.cfgGconf.get a ||| K.smoothMask)]
  else
    [sentWrite K a .swMode (K.cfgSwmodeSwitch.get a), sentWrite K a .rampmode K.modePosition])

/-- The register writes of the arming phases of a sub-protocol, which are as many free values taken
before the first seek poll (44_homing.md R236). -/
def armingWrites (K : Params) (a : Axis) : Nat := if K.stallHoming.get a then 6 else 3

/-- Free value number `n`, drawn as the status register of axis `a`, shows the zero-velocity bit
(40_bus_transport.md R132, 44_homing.md R229). -/
def stoppedAt (K : Params) (a : Axis) (n : Nat) : Prop :=
  K.oracle n a (K.devreg .rampStat &&& 0x7F#8) &&& K.vzeroMask ≠ 0#32

/-! ### States a step starts in -/

/-- No fault is recorded (60_exceptions.md R271). -/
def faultFree (s : State) : Prop := s.faults = [] ∧ s.firstFault = 0#8

/-- A host command other than INIT passes the checks of 30_encoding.md R104. -/
def acceptsCommand (s : State) : Prop := s.faults = [] ∧ s.fgOp = none ∧ s.initDone = true

/-- The interrupt may be taken (60_exceptions.md R279). -/
def takeable (s : State) : Prop :=
  s.tmr.pending = true ∧ s.tmr.tie = true ∧ s.gie = true ∧ s.csDepth = 0 ∧ s.inIsr = false
    ∧ s.faults = []

/-- `s` with fault `c` recorded and nothing else changed, `s` having none before (60_exceptions.md
R271). -/
def withFault (c : FaultCode) (s : State) : State := { s with faults := [c], firstFault := c.code }

/-- HOME on axis `a` with parameters `p` is in progress in phase `ph` (10_state.md R25). -/
def homing (s : State) (a : Axis) (p : HomeParams) (ph : HomePhase) : Prop :=
  s.faults = [] ∧ s.fgOp = some .home ∧ s.homeAxis = some a ∧ s.homeParams = some p ∧ s.homePhase = ph

/-! ### What a step writes and which faults it raises -/

/-- `s` with the fields that the rules of the instruction write taken from `t`: an array of axes or slots
only at the entry they name. Every field not named is that of `s` (10_state.md, and the "State written" line
of each operation; `ret`, `fresh` and the fields of operations in progress are the model's, logs 5, 10, 12,
13). -/
def writtenBy (i : Instr) (s t : State) : State :=
  match i with
  | .init => { s with
    cs := t.cs, devLatch := t.devLatch, fresh := t.fresh, trace := t.trace, initDone := t.initDone
    tmr := { t.tmr with pending := s.tmr.pending } }
  | .calculate => { s with
    slots := s.slots.set s.head.toNat (t.slot s.head), pos := t.pos, snap := t.snap, head := t.head
    full := t.full, prodSlot := t.prodSlot, plan := t.plan, trace := t.trace }
  | .home _ => { s with
    fgOp := t.fgOp, homeAxis := t.homeAxis, homeParams := t.homeParams, homePhase := t.homePhase
    readPend := t.readPend }
  | .setpos a => { s with pos := s.pos.set a (t.pos.get a) }
  | .getpos _ => { s with result := t.result }
  | .rbCount => { s with result := t.result }
  | .endstop _ => { s with fgOp := t.fgOp, endCall := t.endCall, readPend := t.readPend }
  | .busWrite a _ _ => { s with
    cs := s.cs.set a (t.cs.get a), devLatch := s.devLatch.set a (t.devLatch.get a), fresh := t.fresh
    trace := t.trace, ret := t.ret }
  | .busRead a _ => { s with
    cs := s.cs.set a (t.cs.get a), devLatch := s.devLatch.set a (t.devLatch.get a), fresh := t.fresh
    trace := t.trace, readPend := t.readPend }
  | .rbTryEnqueue => { s with prodSlot := t.prodSlot, ret := t.ret }
  | .rbCommit => { s with head := t.head, full := t.full, prodSlot := t.prodSlot }
  | .rbPeekReady => { s with ret := t.ret }
  | .rbDiscard => { s with tail := t.tail, full := t.full }
  | .csEnter => { s with csDepth := t.csDepth }
  | .csExit => { s with csDepth := t.csDepth }
  | .idleYield => { s with trace := t.trace }
  | .timerCompare => { s with
    tmr := { s.tmr with pending := t.tmr.pending, ocr := t.tmr.ocr }, countdown := t.countdown
    slots := s.slots.set s.tail.toNat (t.slot s.tail), tail := t.tail, full := t.full, cs := t.cs
    devLatch := t.devLatch, fresh := t.fresh, trace := t.trace }
  | .planGet => { s with ret := t.ret }
  | .planDiscard => { s with plan := t.plan, trace := t.trace }

/-- The faults an instruction can record (60_exceptions.md R270, column "raised by"; 30_encoding.md R104). -/
def faultsOf (i : Instr) : List FaultCode :=
  match i with
  | .init => [.busy, .reinit]
  | .calculate => [.busy, .notInitialised, .badBlock]
  | .home _ => [.busy, .notInitialised, .homeZeroSpeed]
  | .setpos _ | .getpos _ | .rbCount | .endstop _ => [.busy, .notInitialised]
  | .rbCommit => [.rbOverflow]
  | .rbDiscard => [.rbUnderflow]
  | .csExit => [.csUnbalanced]
  | .timerCompare => [.busContention]
  | .busWrite _ _ _ | .busRead _ _ | .rbTryEnqueue | .rbPeekReady => []
  | .csEnter | .idleYield | .planGet | .planDiscard => []

/-- `s` with the fields that an agent's step writes taken from `t`, for the steps that run no host command
(10_state.md R20, R21; 20_memory.md R72). A foreground step of HOME writes the counter of its own axis
only. -/
def writtenByAgent (α : Action) (s t : State) : State :=
  match α with
  | .hostRead _ _ => { s with hostData := t.hostData }
  | .hostWrite addr _ _ => if addr = 0x04 then { s with arg0 := t.arg0 } else s
  | .hostAppend _ => { s with plan := t.plan }
  | .foreground => { s with
    result := t.result, fgOp := t.fgOp, homeAxis := t.homeAxis, homeParams := t.homeParams
    homePhase := t.homePhase, endCall := t.endCall, readPend := t.readPend, ret := t.ret
    pos := match s.homeAxis with
      | some a => s.pos.set a (t.pos.get a)
      | none => s.pos
    cs := t.cs, devLatch := t.devLatch, fresh := t.fresh, trace := t.trace }
  | .timerEvent => { s with tmr := { s.tmr with pending := t.tmr.pending } }
  | .interrupt => writtenBy .timerCompare s t
  | .reset => t

/-- The faults an agent's step can record that is not the issue of an admitted command (60_exceptions.md
R270). -/
def faultsOfAgent (α : Action) : List FaultCode :=
  match α with
  | .hostRead _ _ => [.illegalAccess]
  | .hostWrite _ _ _ => [.illegalAccess, .busy, .illegalCommand]
  | .interrupt => [.busContention]
  | .hostAppend _ | .foreground | .timerEvent | .reset => []

/-- The step from `s` to `t` recorded one of the faults `cs` and did nothing else (60_exceptions.md R271). -/
def onlyFault (cs : List FaultCode) (s t : State) : Prop :=
  s.faults = [] ∧ ∃ c ∈ cs, t = { s with
    faults := [c], firstFault := if s.firstFault = 0#8 then c.code else s.firstFault }

/-! ### The ring as a queue -/

/-- The slots of the ring are `N`, its indices lie in `0..N-1`, and `full` means `head = tail`
(10_state.md R28). -/
def ringWf (K : Params) (s : State) : Prop :=
  s.slots.length = K.n.toNat ∧ s.head.toNat < K.n.toNat ∧ s.tail.toNat < K.n.toNat
    ∧ (s.full = true → s.head = s.tail)

/-- The number of committed slots (41_ring_buffer.md R156, R158). -/
def occupancy (K : Params) (s : State) : Nat := (ringCount K s.head s.tail s.full).toNat

/-- The committed segments, oldest first (41_ring_buffer.md R156). -/
def queue (K : Params) (s : State) : List Segment :=
  (List.range (occupancy K s)).map fun k =>
    s.slots.getD ((s.tail.toNat + k) % K.n.toNat) Segment.atReset

/-! ### Invariants -/

/-- At most one fault is recorded, and `first_fault` is its code, 0 for none (60_exceptions.md R271,
R272). -/
def faultsWf (s : State) : Prop :=
  (s.faults = [] ∧ s.firstFault = 0#8) ∨ ∃ c, s.faults = [c] ∧ s.firstFault = c.code

/-- The faults that 60_exceptions.md R270 calls reachable from the block's own rules. -/
def FaultCode.ownReachable : FaultCode → Bool
  | .rbOverflow | .rbUnderflow | .csUnbalanced => false
  | .notInitialised | .reinit | .illegalCommand | .illegalAccess | .busy | .badBlock => true
  | .busContention | .homeZeroSpeed => true

/-- Between two steps every select line is released, no handler runs, no critical section is open and
interrupts are enabled (10_state.md R36, R37, R40; 60_exceptions.md R277). -/
def betweenSteps (s : State) : Prop :=
  s.cs = .const false ∧ s.inIsr = false ∧ s.csDepth = 0 ∧ s.gie = true

/-- The timer is stopped and its interrupt disabled until INIT, and both on from then
(70_reset_and_hazards.md R302, 60_exceptions.md R277). -/
def timerWf (s : State) : Prop :=
  s.tmr.ctc = s.initDone ∧ s.tmr.tie = s.initDone ∧ s.tmr.prescaler.isSome = s.initDone

/-- The phases in which a foreground read may be open (44_homing.md R220). -/
def HomePhase.polls : HomePhase → Bool
  | .seekPoll | .retPoll => true
  | .idle | .swEnable | .swVmax | .swMode | .swArm | .stSmoothOff | .stSens | .stThr => false
  | .stArm | .stVmax | .stMode | .seekYield | .tHold | .tZeroAct | .tZeroTgt | .tPosmode => false
  | .tRetract | .retYield | .swRearm | .swPosmode | .stSmoothOn | .done => false

/-- The phase belongs to the sub-protocol: `stall` for the stall-based one (44_homing.md R220, column
"path"). -/
def HomePhase.onPath (stall : Bool) : HomePhase → Bool
  | .idle => false
  | .swEnable | .swVmax | .swMode | .swArm | .swRearm | .swPosmode => !stall
  | .stSmoothOff | .stSens | .stThr | .stArm | .stVmax | .stMode | .stSmoothOn => stall
  | .seekPoll | .seekYield | .tHold | .tZeroAct | .tZeroTgt | .tPosmode | .tRetract => true
  | .retPoll | .retYield | .done => true

/-- The sequencing state is one of: no command; HOME with its axis, parameters and a phase of its
sub-protocol; ENDSTOP with its operands. A foreground read is open only in a poll (10_state.md R24, R25). -/
def sequencingWf (K : Params) (s : State) : Prop :=
  (s.fgOp = none ∧ s.homePhase = .idle ∧ s.homeAxis = none ∧ s.homeParams = none ∧ s.endCall = none
    ∧ s.readPend = none)
  ∨ (∃ a p, s.fgOp = some .home ∧ s.homeAxis = some a ∧ s.homeParams = some p ∧ s.endCall = none
    ∧ s.homePhase.onPath (K.stallHoming.get a) = true
    ∧ (s.readPend = none
      ∨ (s.readPend = some ⟨a, K.devreg .rampStat⟩ ∧ s.homePhase.polls = true)))
  ∨ (∃ c : EndCall, s.fgOp = some .endstop ∧ s.homePhase = .idle ∧ s.homeAxis = none
    ∧ s.homeParams = none ∧ s.endCall = some c
    ∧ (s.readPend = none ∨ s.readPend = some ⟨c.axis, K.devreg .rampStat⟩))

/-- The faults recorded are ones the block's own rules reach (60_exceptions.md R270, last column). -/
def ownFaults (s : State) : Prop := ∀ c ∈ s.faults, c.ownReachable = true

end Sys2Proof.Machine
end

