-- ==== Sys2Proof/Certificates/Slice0/Obligations.lean ====
section
/-! DEFINITION. The statements for the provers, family by family. `Config.params` is the machine's own
configuration, of which nothing is known but its constraints; a statement over all `K` holds for it too. -/

open Sys2Proof Sys2Proof.Machine

/-! ### Decoding and running one instruction -/

/-- The next step runs the instruction that stands next: a host command written to `CMD`, a staged
operation, the interrupt, the foreground unit, the timer (30_encoding.md R100, R104; 60 R279, R280). An
instruction of the opcode table placed by `withFetchWord` is what the next step runs, in the same state but
for the port and, for the event, the conditions of R279 (log 4). -/
def Obligations.StepRunsDecodedInstruction : Prop :=
  (∀ (s : State) (w : Word) (i : Instr) (rest : List Action),
    s.opPort = none → s.agenda = .hostWrite 0x00 4 w :: rest → decode w 0#32 = .ok i →
    i.opcode.hostIssuable = true → step s = exec i { s with agenda := rest })
  ∧ (∀ (s : State) (o : StagedOp) (i : Instr),
    s.opPort = some o → decode o.word o.data = .ok i → step s = exec i { s with opPort := none })
  ∧ (∀ (s : State) (rest : List Action), s.opPort = none → s.agenda = .interrupt :: rest →
    step s = exec .timerCompare { s with agenda := rest })
  ∧ (∀ (s : State) (rest : List Action), s.opPort = none → s.agenda = .foreground :: rest →
    step s = .next (foregroundStep Config.params { s with agenda := rest }))
  ∧ (∀ (s : State) (rest : List Action), s.opPort = none → s.agenda = .timerEvent :: rest →
    step s = .next (timerStep { s with agenda := rest }))
  ∧ (∀ (s : State) (w : Nat) (i : Instr), decodeTableWord 32 w = some i →
    step (s.withFetchWord 32 w)
      = exec i { (if i = .timerCompare then raiseInterrupt s else s) with opPort := none })

/-- Every well-formed instruction is read back from its command word and data operand. -/
def Obligations.DecodeEncodeRoundTrip : Prop :=
  ∀ i : Instr, i.wellFormed = true → decode (encode i) i.dataOperand = .ok i

/-- A word that decodes is the command word of what it decodes to: no bit of a legal word is ignored. -/
def Obligations.DecodedWordIsItsEncoding : Prop :=
  ∀ (w v : Word) (i : Instr), decode w v = .ok i →
    i.wellFormed = true ∧ encode i = w ∧ (i.opcode = .busWrite → i.dataOperand = v)

/-- Words written out from the field table of 30_encoding.md R100 and R103 and the vectors ENC-1 to
ENC-9. -/
def Obligations.SpecWordsDecode : Prop :=
  decode 0x01000000#32 0#32 = .ok .init ∧ decode 0x03400000#32 0#32 = .ok (.home .y)
  ∧ decode 0x04800000#32 0#32 = .ok (.setpos .z) ∧ decode 0x05C00000#32 0#32 = .ok (.getpos .e)
  ∧ decode 0x10000027#32 4000#32 = .ok (.busWrite .x 0x27#8 4000#32)
  ∧ decode 0x11800035#32 0#32 = .ok (.busRead .z 0x35#8)
  ∧ decode 0x40000000#32 0#32 = .ok .timerCompare
  ∧ decode 0x08000000#32 0#32 = .error .unknownOpcode

/-- A word that R107 calls illegal, written to `CMD` while no command runs, records
`F_ILLEGAL_COMMAND` and does nothing else. -/
def Obligations.IllegalCommandWordFaults : Prop :=
  ∀ (s : State) (w : Word), faultFree s → s.fgOp = none →
    (opcField w ∉ [0x01#8, 0x02#8, 0x03#8, 0x04#8, 0x05#8, 0x06#8, 0x07#8]
      ∨ rsvField w ≠ 0#15 ∨ regField w ≠ 0#7
      ∨ (opcField w ∈ [0x01#8, 0x02#8, 0x06#8] ∧ axField w ≠ 0#2)) →
    act (.hostWrite 0x00 4 w) s = .next (withFault .illegalCommand s)

/-! ### Reset, faults and command issue -/

/-- The state after reset: every value that 10_state.md R48 gives. The values the model chose (logs 3 to
8, 10, 14) are not stated. -/
def Obligations.ResetValues : Prop :=
  let s := State.reset
  s.arg0 = 0#32 ∧ s.result = 0#32 ∧ s.status = 0#32 ∧ windowRead s 0x00 = 0#32
  ∧ s.fgOp = none ∧ s.homeAxis = none ∧ s.homePhase = .idle
  ∧ s.slots.length = Config.params.n.toNat ∧ (∀ g ∈ s.slots, g.ready = false ∧ g.zflag = false)
  ∧ s.head = 0#32 ∧ s.tail = 0#32 ∧ s.full = false ∧ s.prodSlot = none
  ∧ (∀ a, s.pos.get a = 0#32 ∧ s.dirmult.get a = .plus)
  ∧ (∀ a, s.snap.acc.get a = 0#32 ∧ s.snap.vstart.get a = 0#32 ∧ s.snap.vmax.get a = 0#32
    ∧ s.snap.vstop.get a = 0#32 ∧ s.snap.target.get a = 0#32)
  ∧ s.countdown = 0#32 ∧ s.tmr.ctc = false ∧ s.tmr.tie = false ∧ s.tmr.pending = false
  ∧ s.tmr.prescaler = none ∧ s.gie = true ∧ s.csDepth = 0 ∧ s.inIsr = false ∧ s.initDone = false
  ∧ s.faults = [] ∧ s.firstFault = 0#8
  ∧ (∀ a, s.cs.get a = false ∧ s.devLatch.get a = none) ∧ s.trace = []

/-- The external reset leads from every state, a faulted one and one in the midst of HOME included, to the
state after reset, but for the choices to come, the count of free values taken and what the host has read
(70_reset_and_hazards.md R300; log 17). -/
def Obligations.ExternalResetFromAnyState : Prop :=
  ∀ (s : State) (rest : List Action), s.opPort = none → s.agenda = .reset :: rest →
    step s = .next { State.reset with fresh := s.fresh, agenda := rest, hostData := s.hostData }

/-- The invariants of the state hold after reset; the model's own fields in them are at the values of logs 4,
12 and 13. -/
def Obligations.ResetMeetsInvariants : Prop :=
  ringWf Config.params State.reset ∧ faultsWf State.reset ∧ betweenSteps State.reset
  ∧ timerWf State.reset ∧ sequencingWf Config.params State.reset ∧ ownFaults State.reset

/-- Before INIT every other host command records `F_NOT_INITIALISED` and does nothing else. -/
def Obligations.CommandBeforeInitFaults : Prop :=
  ∀ (i : Instr) (s : State), i.opcode.hostIssuable = true → i ≠ .init → faultFree s →
    s.fgOp = none → s.initDone = false → exec i s = .next (withFault .notInitialised s)

/-- While a command runs, every word written to `CMD`, legal or not, records `F_BUSY` and does nothing
else; the check precedes every other. -/
def Obligations.CommandWhileBusyFaults : Prop :=
  ∀ (w : Word) (s : State), faultFree s → s.fgOp.isSome = true →
    act (.hostWrite 0x00 4 w) s = .next (withFault .busy s)

/-- Once a fault is recorded, the foreground unit, the interrupt unit, the timer and every operation stand
still; the host can read the window and write `ARG0`; a command write and an illegal access are ignored;
an append to the planner's queue is ignored too (log 16); only reset leaves the state; and no step ever
brings a second code. A value read stands in `hostData`, the model's place for it (log 14). -/
def Obligations.FaultedBlockIsQuiescent : Prop :=
  (∀ s : State, s.faults ≠ [] →
    (∀ i, exec i s = .next s)
    ∧ act .foreground s = .next s ∧ act .interrupt s = .next s ∧ act .timerEvent s = .next s
    ∧ (∀ w, act (.hostWrite 0x00 4 w) s = .next s)
    ∧ (∀ v, act (.hostWrite 0x04 4 v) s = .next { s with arg0 := v })
    ∧ (∀ b, act (.hostAppend b) s = .next s)
    ∧ (∀ addr n, legalAccess addr n = true →
      act (.hostRead addr n) s = .next { s with hostData := windowRead s addr })
    ∧ (∀ addr n, legalAccess addr n = false →
      act (.hostRead addr n) s = .next s ∧ ∀ v, act (.hostWrite addr n v) s = .next s))
  ∧ (∀ (s t : State) (α : Action), s.faults ≠ [] → α ≠ .reset → act α s = .next t →
    t.faults = s.faults)
  ∧ (∀ (s t : State) (α : Action), s.faults.length ≤ 1 → act α s = .next t → t.faults.length ≤ 1)

/-- The register window: what each of the five offsets reads and what writing it does; every other access
is a fault. A value read stands in `hostData`, the model's place for it (log 14). -/
def Obligations.RegisterWindow : Prop :=
  ∀ s : State,
    act (.hostRead 0x00 4) s = .next { s with hostData := 0#32 }
    ∧ act (.hostRead 0x04 4) s = .next { s with hostData := s.arg0 }
    ∧ act (.hostRead 0x08 4) s = .next { s with hostData := 0#32 }
    ∧ act (.hostRead 0x0C 4) s = .next { s with hostData := s.result }
    ∧ act (.hostRead 0x10 4) s = .next { s with hostData := s.status }
    ∧ (∀ v, act (.hostWrite 0x04 4 v) s = .next { s with arg0 := v })
    ∧ (∀ v, act (.hostWrite 0x08 4 v) s = .next s ∧ act (.hostWrite 0x0C 4 v) s = .next s
      ∧ act (.hostWrite 0x10 4 v) s = .next s)
    ∧ (∀ w i, decode w 0#32 = .ok i → i.opcode.hostIssuable = true →
      act (.hostWrite 0x00 4 w) s = exec i s)
    ∧ (∀ addr n, ¬ (n = 4 ∧ addr ∈ [0x00, 0x04, 0x08, 0x0C, 0x10]) → faultFree s →
      act (.hostRead addr n) s = .next (withFault .illegalAccess s)
      ∧ ∀ v, act (.hostWrite addr n v) s = .next (withFault .illegalAccess s))

/-- Each bit of STATUS. -/
def Obligations.StatusBits : Prop :=
  ∀ s : State,
    (s.status.getLsbD 0 = true ↔ s.fgOp = some .home ∨ s.fgOp = some .endstop)
    ∧ (s.status.getLsbD 1 = true ↔ s.faults ≠ [])
    ∧ s.status.getLsbD 2 = s.initDone
    ∧ s.status.extractLsb' 8 8 = s.firstFault
    ∧ ∀ k, (3 ≤ k ∧ k < 8) ∨ 16 ≤ k → s.status.getLsbD k = false

/-! ### INIT, positions, critical sections, planner -/

/-- INIT sends its 32 frames, eight to each chip in turn, then starts the timer and enables its interrupt;
nothing else changes. A second INIT is a fault. The count of draws is the model's (log 5). -/
def Obligations.InitProgramsEveryChip : Prop :=
  (∀ s : State, s.faults = [] → s.fgOp = none → s.initDone = false →
    ∃ evs : List Event,
      exec .init s = .next { s with
        cs := .const false
        devLatch := .const (some (Config.params.writeFlag ||| Config.params.devreg .swMode))
        tmr := { s.tmr with
          ctc := true, prescaler := some Config.params.prescaler, ocr := Config.params.ocrInit,
          tie := true }
        initDone := true
        fresh := s.fresh + 32
        trace := s.trace ++ evs ++ [.timerSet Config.params.ocrInit] }
      ∧ evs.map Event.sent = initSent Config.params)
  ∧ (∀ s : State, faultFree s → s.fgOp = none → s.initDone = false →
    ∃ t, exec .init s = .next t ∧ t.status = 0x00000004#32)
  ∧ (∀ s : State, faultFree s → s.fgOp = none → s.initDone = true →
    exec .init s = .next (withFault .reinit s))

/-- SETPOS writes `pos[a]` and nothing else; GETPOS writes `RESULT` and nothing else; together they read
back what was set, any 32-bit value of it, and no other axis. -/
def Obligations.PositionCommands : Prop :=
  ∀ (a : Axis) (s : State), acceptsCommand s →
    exec (.setpos a) s = .next { s with pos := s.pos.set a s.arg0 }
    ∧ exec (.getpos a) s = .next { s with result := s.pos.get a }
    ∧ ∀ a', exec (.getpos a') { s with pos := s.pos.set a s.arg0 } = .next { s with
      pos := s.pos.set a s.arg0, result := if a' = a then s.arg0 else s.pos.get a' }

/-- CS_ENTER and CS_EXIT move the depth, an exit without an entry being a fault; IDLE_YIELD, PLAN_GET and
PLAN_DISCARD do what their rules say and nothing else; a block the host appends goes to the end of the
planner's queue (10_state.md R44). Where PLAN_GET's value stands is the model's choice (log 10). -/
def Obligations.SectionsYieldAndPlanner : Prop :=
  ∀ s : State, s.faults = [] →
    exec .csEnter s = .next { s with csDepth := s.csDepth + 1 }
    ∧ (s.csDepth ≠ 0 → exec .csExit s = .next { s with csDepth := s.csDepth - 1 })
    ∧ (s.csDepth = 0 → s.firstFault = 0#8 → exec .csExit s = .next (withFault .csUnbalanced s))
    ∧ exec .idleYield s = .next { s with trace := s.trace ++ [.yield] }
    ∧ exec .planGet s = .next { s with ret := .block s.plan.head? }
    ∧ exec .planDiscard s
      = .next { s with plan := s.plan.tail, trace := s.trace ++ [.planDiscard] }
    ∧ ∀ b, act (.hostAppend b) s = .next { s with plan := s.plan ++ [b] }

/-- The command lines of 30_encoding.md R110: what a line writes to `CMD` is the encoding of its
instruction, its argument goes to `ARG0` before it, and `SETPOS` and `GETPOS` run to their end. WAIT_IDLE
goes on exactly while a command is in progress (R111). The poll reads `hostData`, the model's place for a
value read (log 14), and the loop is given as one poll and the test for another (log 24). -/
def Obligations.HostLinesIssueTheirCommands : Prop :=
  HostLine.init.expand = [cmdWrite (encode .init)]
  ∧ HostLine.calc.expand = [cmdWrite (encode .calculate)]
  ∧ HostLine.rbCount.expand = [cmdWrite (encode .rbCount)]
  ∧ (∀ (a : Axis) (v : Word),
    (HostLine.home a v).expand = [argWrite v, cmdWrite (encode (.home a))]
    ∧ (HostLine.setpos a v).expand = [argWrite v, cmdWrite (encode (.setpos a))]
    ∧ (HostLine.getpos a).expand = [cmdWrite (encode (.getpos a))]
    ∧ (HostLine.endstop a v).expand = [argWrite v, cmdWrite (encode (.endstop a))])
  ∧ (∀ (a : Axis) (v : Word) (s : State), acceptsCommand s →
    ∃ s1, act (argWrite v) s = .next s1
      ∧ act (cmdWrite (encode (.setpos a))) s1
        = .next { s with arg0 := v, pos := s.pos.set a v }
      ∧ act (cmdWrite (encode (.getpos a))) s = .next { s with result := s.pos.get a })
  ∧ (∀ s : State, ∃ t, act pollStatus s = .next t
    ∧ (waitGoesOn t = true ↔ s.fgOp = some .home ∨ s.fgOp = some .endstop))

/-! ### Bus -/

/-- BUS_WRITE is one frame with address byte `WRITE_FLAG | REG`; the data that comes back answers the
previous frame's address and only the status byte is returned. Draws are numbered free values (log 5), and
what is returned stands in `ret` (log 10). -/
def Obligations.BusWriteSendsOneFrame : Prop :=
  ∀ (a : Axis) (r : RegAddr) (v : Word) (s : State), s.faults = [] →
    exec (.busWrite a r v) s = .next { s with
      cs := s.cs.set a false
      devLatch := s.devLatch.set a (some (Config.params.writeFlag ||| r))
      fresh := s.fresh + 1
      ret := .status (Config.params.oracleStatus s.fresh a)
      trace := s.trace ++ [.frame a (Config.params.writeFlag ||| r) v
        (Config.params.oracleStatus s.fresh a)
        (match s.devLatch.get a with
          | none => Config.params.oracleAny s.fresh a
          | some pab => Config.params.oracle s.fresh a (pab &&& 0x7F#8))] }

/-- BUS_READ is two frames in two steps; with no frame between them, the second one answers the register
read and its data is what the read returns. A read issued by itself, its open read, the place of its value
and the numbering of the draws are the model's (logs 5, 10, 12). -/
def Obligations.BusReadTakesTwoFrames : Prop :=
  ∀ (a : Axis) (r : RegAddr) (s : State), s.faults = [] → s.fgOp = none →
    ∃ (s1 : State) (e1 : Event) (st : Byte),
      exec (.busRead a r) s = .next s1 ∧ e1.sent = .frame a r 0#32
      ∧ s1 = { s with
        cs := s.cs.set a false, devLatch := s.devLatch.set a (some r), fresh := s.fresh + 1
        readPend := some ⟨a, r⟩, trace := s.trace ++ [e1] }
      ∧ act .foreground s1 = .next { s1 with
        fresh := s.fresh + 2, readPend := none
        ret := .data (Config.params.oracle (s.fresh + 1) a (r &&& 0x7F#8))
        trace := s.trace ++ [e1, .frame a r 0#32 st
          (Config.params.oracle (s.fresh + 1) a (r &&& 0x7F#8))] }

/-- The read pipeline: the second frame of a read returns the answer for whatever address byte the chip
was sent last, so a frame between the two changes what the read returns (40 R131, 70 R306). The read is one
issued by itself and finished by a foreground step (log 12), its value stands in `ret` (log 10), and the draws
are numbered free values (log 5). -/
def Obligations.InterposedFrameChangesRead : Prop :=
  ∀ (a : Axis) (r r' : RegAddr) (v : Word) (s s1 s2 : State), s.faults = [] → s.fgOp = none →
    exec (.busRead a r) s = .next s1 → exec (.busWrite a r' v) s1 = .next s2 →
    ∃ t, act .foreground s2 = .next t
      ∧ t.ret = .data (Config.params.oracle (s.fresh + 2) a
        ((Config.params.writeFlag ||| r') &&& 0x7F#8))

/-- The bytes of a frame in wire order, and their reassembly. -/
def Obligations.FrameByteOrder : Prop :=
  (∀ (ab : Byte) (v : Word), frameOut ab v
    = [ab, v.extractLsb' 24 8, v.extractLsb' 16 8, v.extractLsb' 8 8, v.extractLsb' 0 8])
  ∧ (∀ v : Word, ofWireBytes (v.extractLsb' 24 8) (v.extractLsb' 16 8) (v.extractLsb' 8 8)
    (v.extractLsb' 0 8) = v)
  ∧ (∀ b0 b1 b2 b3 : Byte, wireBytes (ofWireBytes b0 b1 b2 b3) = [b0, b1, b2, b3])

/-! ### Ring -/

/-- RB_TRY_ENQUEUE reserves the head slot unless the ring is full, and moves nothing. Where its value stands
is the model's choice (log 10). -/
def Obligations.TryEnqueueReservesHead : Prop :=
  ∀ s : State, s.faults = [] →
    (s.full = false →
      exec .rbTryEnqueue s = .next { s with prodSlot := some s.head, ret := .slot (some s.head) })
    ∧ (s.full = true → exec .rbTryEnqueue s = .next { s with ret := .slot none })

/-- RB_COMMIT advances the head and sets `full` where it catches the tail; without a reservation, or on a
full ring, it is a fault. -/
def Obligations.CommitAdvancesHead : Prop :=
  ∀ s : State, s.faults = [] →
    (s.full = false → s.prodSlot = some s.head →
      exec .rbCommit s = .next { s with
        head := (s.head + 1#32) &&& (Config.params.n - 1#32)
        full := (s.head + 1#32) &&& (Config.params.n - 1#32) == s.tail
        prodSlot := none })
    ∧ (s.full = true ∨ s.prodSlot ≠ some s.head → s.firstFault = 0#8 →
      exec .rbCommit s = .next (withFault .rbOverflow s))

/-- RB_PEEK_READY answers the tail of a ring that is not empty and writes nothing of the block. Where its
value stands is the model's choice (log 10). -/
def Obligations.PeekReadyAnswersTail : Prop :=
  ∀ s : State, s.faults = [] →
    (s.head = s.tail → s.full = false → exec .rbPeekReady s = .next { s with ret := .slot none })
    ∧ (s.head ≠ s.tail ∨ s.full = true →
      exec .rbPeekReady s = .next { s with ret := .slot (some s.tail) })

/-- RB_DISCARD advances the tail and clears `full`; on an empty ring it is a fault. -/
def Obligations.DiscardAdvancesTail : Prop :=
  ∀ s : State, s.faults = [] →
    (s.head ≠ s.tail ∨ s.full = true →
      exec .rbDiscard s = .next { s with
        tail := (s.tail + 1#32) &&& (Config.params.n - 1#32), full := false })
    ∧ (s.head = s.tail → s.full = false → s.firstFault = 0#8 →
      exec .rbDiscard s = .next (withFault .rbUnderflow s))

/-- RB_COUNT writes the occupancy to `RESULT`; in a well-formed ring it is the number of committed
segments. -/
def Obligations.CountReportsOccupancy : Prop :=
  ∀ s : State, acceptsCommand s →
    exec .rbCount s = .next { s with
      result :=
        if s.full then Config.params.n else (s.head - s.tail) &&& (Config.params.n - 1#32) }
    ∧ (ringWf Config.params s → ∃ t, exec .rbCount s = .next t
      ∧ t.result.toNat = (queue Config.params s).length)

/-- In a well-formed ring the occupancy never exceeds `N`, and RB_TRY_ENQUEUE returns none exactly when it
is `N` (41_ring_buffer.md R159, which the spec derives). What it returns is seen in `ret`, the model's place
for it (log 10). -/
def Obligations.EnqueueFailsExactlyWhenFull : Prop :=
  ∀ s : State, ringWf Config.params s → s.faults = [] →
    occupancy Config.params s ≤ Config.params.n.toNat
    ∧ ∃ t, exec .rbTryEnqueue s = .next t
      ∧ (t.ret = .slot none ↔ occupancy Config.params s = Config.params.n.toNat)

/-- From a full ring, one discard allows exactly one more enqueue before the ring is full again
(41_ring_buffer.md R160, which the spec derives). What the enqueues return is seen in `ret`, the model's place
for it (log 10). -/
def Obligations.DiscardAllowsOneEnqueue : Prop :=
  ∀ s : State, ringWf Config.params s → s.faults = [] → s.full = true →
    ∃ s1 s2 s3 s4 : State, exec .rbDiscard s = .next s1 ∧ exec .rbTryEnqueue s1 = .next s2
      ∧ s2.ret = .slot (some s.head) ∧ exec .rbCommit s2 = .next s3 ∧ s3.full = true
      ∧ exec .rbTryEnqueue s3 = .next s4 ∧ s4.ret = .slot none

/-! ### Calculator -/

/-- CALC with a free slot and a good block: the segment's fields axis by axis, its duration (three floored
phases on exact numbers, a zero divisor giving a zero phase, corrected and clamped), the counters, the
snapshot, the indices, the planner's queue; nothing else changes. -/
def Obligations.CalcBuildsSegment : Prop :=
  ∀ (s : State) (b : Block) (rest : List Block), acceptsCommand s → s.full = false →
    s.plan = b :: rest → ((∀ a, b.steps.get a = 0#32) ∨ b.eventCount ≠ 0#32) →
    ∃ (g : Segment) (pos' : PerAxis Word),
      exec .calculate s = .next { s with
        slots := s.slots.set s.head.toNat g
        pos := pos'
        snap := ⟨g.acc, g.vstart, g.vmax, g.vstop, g.target⟩
        head := (s.head + 1#32) &&& (Config.params.n - 1#32)
        full := (s.head + 1#32) &&& (Config.params.n - 1#32) == s.tail
        prodSlot := none
        plan := rest
        trace := s.trace ++ [.planDiscard] }
      ∧ g.ready = true ∧ g.zflag = (b.steps.z != 0#32)
      ∧ g.duration.toNat
        = min (((if b.accel.toNat = 0 then 0
              else (b.nominalRate.toNat - b.initialRate.toNat) * Config.params.timeUnit
                / b.accel.toNat)
            + (if b.nominalRate.toNat = 0 then 0
              else (b.decelAfter.toNat - b.accelUntil.toNat) * Config.params.timeUnit
                / b.nominalRate.toNat)
            + (if b.accel.toNat = 0 then 0
              else (b.nominalRate.toNat - b.finalRate.toNat) * Config.params.timeUnit
                / b.accel.toNat))
            * Config.params.corrNum / Config.params.corrDen) 0xFFFFFFFF
      ∧ (∀ a, b.steps.get a = 0#32 →
        g.acc.get a = s.snap.acc.get a ∧ g.vstart.get a = s.snap.vstart.get a
        ∧ g.vmax.get a = s.snap.vmax.get a ∧ g.vstop.get a = s.snap.vstop.get a
        ∧ g.target.get a = s.snap.target.get a ∧ pos'.get a = s.pos.get a)
      ∧ (∀ a, b.steps.get a ≠ 0#32 →
        let ratio : Word := (b.steps.get a <<< 16) / b.eventCount
        let acc : Word := ((ratio >>> 7) * b.accel) >>> 16
        let vs : Word := (ratio * b.initialRate) >>> 16
        let vm : Word := (ratio * b.nominalRate) >>> 16
        let ve : Word := (ratio * b.finalRate) >>> 16
        g.acc.get a = (if acc = 0#32 then Config.params.accMin.get a else acc)
        ∧ g.vmax.get a = vm
        ∧ (g.vstart.get a).toNat = min vs.toNat vm.toNat
        ∧ (g.vstop.get a).toNat
          = (match Config.params.vstopMax.get a with
            | none => max ve.toNat (Config.params.vstopMin.get a).toNat
            | some m => min (max ve.toNat (Config.params.vstopMin.get a).toNat) m.toNat)
        ∧ pos'.get a
          = (if xor (b.dirBits.getLsbD (axisIndex a)) (s.dirmult.get a == .minus)
            then s.pos.get a - b.steps.get a else s.pos.get a + b.steps.get a)
        ∧ g.target.get a = pos'.get a)

/-- Flooring the three phases loses less than 3 units before the correction, so less than
`3 * CORR_NUM / CORR_DEN + 1` after it, and never gains (where the result is not clamped). A zero acceleration
or nominal rate gives a zero phase on both sides: division by 0 is 0 in `ℕ` and `ℚ` (42 R181, R182). -/
def Obligations.DurationRoundingBound : Prop :=
  ∀ (K : Params) (b : Block), 1 ≤ K.corrDen →
    let phases : ℕ :=
      (b.nominalRate.toNat - b.initialRate.toNat) * K.timeUnit / b.accel.toNat
        + (b.decelAfter.toNat - b.accelUntil.toNat) * K.timeUnit / b.nominalRate.toNat
        + (b.nominalRate.toNat - b.finalRate.toNat) * K.timeUnit / b.accel.toNat
    let exact : ℚ :=
      ((b.nominalRate.toNat - b.initialRate.toNat : ℕ) : ℚ) * K.timeUnit / b.accel.toNat
        + ((b.decelAfter.toNat - b.accelUntil.toNat : ℕ) : ℚ) * K.timeUnit / b.nominalRate.toNat
        + ((b.nominalRate.toNat - b.finalRate.toNat : ℕ) : ℚ) * K.timeUnit / b.accel.toNat
    (phases : ℚ) ≤ exact ∧ exact < phases + 3
    ∧ (duration K b).toNat = min (phases * K.corrNum / K.corrDen) 0xFFFFFFFF
    ∧ ((duration K b).toNat : ℚ) ≤ exact * K.corrNum / K.corrDen
    ∧ ((duration K b).toNat < 0xFFFFFFFF →
      exact * K.corrNum / K.corrDen
        < (duration K b).toNat + 3 * (K.corrNum : ℚ) / K.corrDen + 1)

/-- CALC with a full ring or no block changes nothing but the reservation, which is returned to none; a
malformed block is then no fault either. -/
def Obligations.CalcNoOp : Prop :=
  ∀ s : State, acceptsCommand s → (s.full = true ∨ s.plan = []) →
    exec .calculate s = .next { s with prodSlot := none }

/-- CALC with a free slot: a block that moves an axis in zero step events records `F_BAD_BLOCK` and does
nothing else; every other block is admitted and consumed, a block that moves no axis whatever its step-event
count, and one with more steps than step events. -/
def Obligations.CalcMalformedBlockFaults : Prop :=
  ∀ (s : State) (b : Block) (rest : List Block), acceptsCommand s → s.firstFault = 0#8 →
    s.full = false → s.plan = b :: rest →
    ((∃ a, b.steps.get a ≠ 0#32) ∧ b.eventCount = 0#32 →
      exec .calculate s = .next (withFault .badBlock s))
    ∧ ((∀ a, b.steps.get a = 0#32) ∨ b.eventCount ≠ 0#32 →
      ∃ t, exec .calculate s = .next t ∧ t.faults = [] ∧ t.plan = rest
        ∧ t.prodSlot = none ∧ t.head = (s.head + 1#32) &&& (Config.params.n - 1#32))

/-- For an axis that moves, the acceleration is never zero, the final speed lies within its floor and its
ceiling, and the initial speed is never above the nominal one. -/
def Obligations.MovingAxisBounds : Prop :=
  ∀ (s t : State) (b : Block) (rest : List Block) (a : Axis), acceptsCommand s → s.full = false →
    s.plan = b :: rest → b.eventCount ≠ 0#32 → b.steps.get a ≠ 0#32 → exec .calculate s = .next t →
    t.snap.acc.get a ≠ 0#32
    ∧ Config.params.vstopMin.get a ≤ t.snap.vstop.get a
    ∧ (∀ m, Config.params.vstopMax.get a = some m → t.snap.vstop.get a ≤ m)
    ∧ t.snap.vstart.get a ≤ t.snap.vmax.get a

/-- An axis that makes every step event of a block of fewer than 65536 steps has ratio 65536: a rate comes
out as itself below 65536 and modulo 65536 above. -/
def Obligations.FullShareSpeed : Prop :=
  ∀ (steps rate : Word), steps ≠ 0#32 → steps.toNat < 65536 →
    axisRatio steps steps = 65536#32
    ∧ (axisSpeed (axisRatio steps steps) rate).toNat = rate.toNat % 65536

/-- After SETPOS on an axis, a segment in which that axis does not move carries the old target, while the
counter keeps the new position. -/
def Obligations.SetposLeavesCarriedTarget : Prop :=
  ∀ (s : State) (a : Axis) (b : Block) (rest : List Block), acceptsCommand s → s.full = false →
    ringWf Config.params s → s.plan = b :: rest → b.steps.get a = 0#32 →
    ((∀ a', b.steps.get a' = 0#32) ∨ b.eventCount ≠ 0#32) →
    ∃ s1 s2 : State, exec (.setpos a) s = .next s1 ∧ exec .calculate s1 = .next s2
      ∧ (s2.slot s.head).target.get a = s.snap.target.get a ∧ s2.pos.get a = s.arg0

/-! ### Dispatch interrupt and timer -/

/-- State Waiting: the smaller of the countdown and 0xFFFF is programmed and taken from the countdown;
nothing else changes. -/
def Obligations.WaitingRearmsTimer : Prop :=
  ∀ s : State, takeable s → s.countdown ≠ 0#32 →
    ∃ c : Word, c.toNat = min s.countdown.toNat 0xFFFF
      ∧ exec .timerCompare s = .next { s with
        tmr := { s.tmr with pending := false, ocr := c.truncate 16 }
        countdown := s.countdown - c
        trace := s.trace ++ [.timerSet (c.truncate 16)] }

/-- State Idle, by an empty ring or by a tail slot that is not ready: the countdown becomes `POLL_TICKS`;
nothing else changes. -/
def Obligations.IdlePollsAgain : Prop :=
  ∀ s : State, takeable s → s.countdown = 0#32 →
    ((s.head = s.tail ∧ s.full = false) ∨ (s.slot s.tail).ready = false) →
    exec .timerCompare s = .next { s with
      tmr := { s.tmr with pending := false }, countdown := Config.params.pollTicks }

/-- State Dispatching: the frames in the order of R204, then the countdown, the readiness flag and the
discard; nothing else changes. The count of draws is the model's (log 5). -/
def Obligations.DispatchWritesSegment : Prop :=
  ∀ s : State, takeable s → s.countdown = 0#32 → (s.head ≠ s.tail ∨ s.full = true) →
    (s.slot s.tail).ready = true → s.fgOp ≠ some .home → s.fgOp ≠ some .endstop →
    ∃ evs : List Event,
      evs.map Event.sent = dispatchSent Config.params (s.slot s.tail)
      ∧ evs.length = (if (s.slot s.tail).zflag then 24 else 18)
      ∧ exec .timerCompare s = .next { s with
        tmr := { s.tmr with pending := false }
        countdown := (s.slot s.tail).duration
        slots := s.slots.set s.tail.toNat { s.slot s.tail with ready := false }
        tail := (s.tail + 1#32) &&& (Config.params.n - 1#32)
        full := false
        cs := ⟨false, false, if (s.slot s.tail).zflag then false else s.cs.z, false⟩
        devLatch :=
          ⟨some (Config.params.writeFlag ||| Config.params.devreg .xtarget),
            some (Config.params.writeFlag ||| Config.params.devreg .xtarget),
            if (s.slot s.tail).zflag
              then some (Config.params.writeFlag ||| Config.params.devreg .xtarget)
              else s.devLatch.z,
            some (Config.params.writeFlag ||| Config.params.devreg .xtarget)⟩
        fresh := s.fresh + evs.length
        trace := s.trace ++ evs }

/-- A dispatch while HOME or ENDSTOP runs records `F_BUS_CONTENTION` and does nothing else: the event stays
pending and the segment stays in the ring. -/
def Obligations.DispatchDuringBusCommandFaults : Prop :=
  ∀ s : State, takeable s → s.firstFault = 0#8 → s.countdown = 0#32 →
    (s.head ≠ s.tail ∨ s.full = true) → (s.slot s.tail).ready = true →
    (s.fgOp = some .home ∨ s.fgOp = some .endstop) →
    exec .timerCompare s = .next (withFault .busContention s)

/-- The interrupt is taken only under all the conditions of R279. That TIMER_COMPARE then changes nothing and
the event stays pending is read from the rule by inference (log 19, DEDUCED). -/
def Obligations.InterruptNotTaken : Prop :=
  ∀ s : State, ¬ takeable s → exec .timerCompare s = .next s

/-- Every speed and acceleration register of a dispatch is written before any of its target registers: the
frames split into those before and the `XTARGET` writes, which are those of every axis but for Z where the
segment does not change it. -/
def Obligations.TargetsWrittenLast : Prop :=
  ∀ s t : State, takeable s → s.countdown = 0#32 → (s.head ≠ s.tail ∨ s.full = true) →
    (s.slot s.tail).ready = true → s.fgOp = none → exec .timerCompare s = .next t →
    ∃ before targets : List Event, t.trace = s.trace ++ before ++ targets
      ∧ (∀ e ∈ before, ∃ a ab v st d, e = .frame a ab v st d
        ∧ ab ≠ Config.params.writeFlag ||| Config.params.devreg .xtarget)
      ∧ (∀ e ∈ targets, ∃ a v st d, e = .frame a
        (Config.params.writeFlag ||| Config.params.devreg .xtarget) v st d)
      ∧ (∀ a, (∃ v st d, Event.frame a
        (Config.params.writeFlag ||| Config.params.devreg .xtarget) v st d ∈ targets)
          ↔ (a = .z → (s.slot s.tail).zflag = true))

/-- A countdown `n` is consumed in `ceil (n / 0xFFFF)` firings: full chunks of 0xFFFF first, then the
rest. -/
def Obligations.CountdownConsumedInChunks : Prop :=
  ∀ (K : Params) (s : State), s.timerRuns = true → s.tmr.tie = true → s.gie = true →
    s.csDepth = 0 → s.inIsr = false →
    let firing := fun u : State => interruptStep K (timerStep u)
    let q := s.countdown.toNat / 0xFFFF
    let r := s.countdown.toNat % 0xFFFF
    (firing^[q] s).countdown.toNat = r
    ∧ (firing^[q] s).trace = s.trace ++ List.replicate q (.timerSet 0xFFFF#16)
    ∧ (r ≠ 0 → (firing^[q + 1] s).countdown = 0#32
      ∧ (firing^[q + 1] s).trace
        = s.trace ++ List.replicate q (.timerSet 0xFFFF#16) ++ [.timerSet (BitVec.ofNat 16 r)])

/-- A compare event in a critical section stays pending, further ones are absorbed, and exactly one
handler runs once the section is closed. -/
def Obligations.CriticalSectionHoldsInterrupt : Prop :=
  ∀ (s : State) (m : Nat), s.timerRuns = true → s.tmr.tie = true → s.gie = true → s.csDepth = 0 →
    s.inIsr = false → s.fgOp = none →
    ∃ s1 s2 s3 : State, exec .csEnter s = .next s1
      ∧ exec .timerCompare (timerStep^[m + 1] s1) = .next (timerStep^[m + 1] s1)
      ∧ exec .csExit (timerStep^[m + 1] s1) = .next s2 ∧ takeable s2
      ∧ exec .timerCompare s2 = .next s3 ∧ s3.tmr.pending = false ∧ exec .timerCompare s3 = .next s3

/-- The handler neither reads nor writes the position counters, the direction multipliers, the snapshot
or the planner's queue. -/
def Obligations.HandlerIgnoresPositions : Prop :=
  ∀ (K : Params) (s : State) (pos' : PerAxis Word) (dir' : PerAxis Sign) (snap' : Snapshot)
    (plan' : List Block),
    interruptStep K { s with pos := pos', dirmult := dir', snap := snap', plan := plan' }
      = { interruptStep K s with pos := pos', dirmult := dir', snap := snap', plan := plan' }

/-- CALC and the handler commute in the handler's states Waiting and Dispatching, with a slot free and no
malformed block at the planner's head: either order ends in the same state, but for the order of events in
the trace. In state Idle they do not commute, for the handler then finds the segment that CALC commits. -/
def Obligations.CalcCommutesWithHandler : Prop :=
  ∀ (K : Params) (s : State), acceptsCommand s → takeable s → ringWf K s → s.full = false →
    s.handlerState ≠ .idle →
    (∀ b, s.plan.head? = some b → Block.moves b = true → b.eventCount ≠ 0#32) →
    { interruptStep K (calcCommand K s) with trace := [] }
      = { calcCommand K (interruptStep K s) with trace := [] }

/-! ### Homing and the endstop query -/

/-- HOME at its issue: the parameters of R222, the first phase, and nothing else; stall-based homing at
speed 0 records `F_HOME_ZERO_SPEED` and does nothing else. That the parameters are kept in the state, and
that no read is open then, are the model's (logs 12, 13). -/
def Obligations.HomeIssue : Prop :=
  ∀ (a : Axis) (s : State), acceptsCommand s →
    exec (.home a) s = .next (homeCommand Config.params a s)
    ∧ ∀ K : Params,
      (¬ (K.stallHoming.get a = true ∧ K.toVel a s.arg0 = 0#32) →
        homeCommand K a s = { s with
          fgOp := some .home
          homeAxis := some a
          homePhase := if K.stallHoming.get a then .stSmoothOff else .swEnable
          homeParams := some {
            vh := K.toVel a s.arg0
            retract :=
              if K.homeDir.get a = .minus then K.toSteps a (K.bumpDist.get a)
              else 0#32 - K.toSteps a (K.bumpDist.get a)
            seek := if K.homeDir.get a = .minus then K.modeVelNeg else K.modeVelPos
            thr :=
              if K.stallHoming.get a
              then K.tstepK / K.toVel a s.arg0 + K.tstepK / K.toVel a s.arg0 / 10#32
              else 0#32 }
          readPend := none })
      ∧ (K.stallHoming.get a = true → K.toVel a s.arg0 = 0#32 → s.firstFault = 0#8 →
        homeCommand K a s = withFault .homeZeroSpeed s)

/-- The phase table of R220: what each phase sends, what it writes and where it goes; a poll's way on is
decided by what its second frame returns, the answer for the address byte the chip was sent last. Where the
call's parameters and the open read stand, and the numbering of the draws, are the model's (logs 5, 12, 13). -/
def Obligations.HomePhaseTable : Prop :=
  ∀ (K : Params) (a : Axis) (p : HomeParams) (ph : HomePhase) (s : State), homing s a p ph →
    let st := K.oracleStatus s.fresh a
    let din := match s.devLatch.get a with
      | none => K.oracleAny s.fresh a
      | some pab => K.oracle s.fresh a (pab &&& 0x7F#8)
    let pend : ReadPend := ⟨a, K.devreg .rampStat⟩
    (∀ r v nx, homeWriteRow K a p ph = some (r, v, nx) →
      foregroundStep K s = { s with
        homePhase := nx
        pos := if ph = .tZeroTgt then s.pos.set a 0#32 else s.pos
        cs := s.cs.set a false
        devLatch := s.devLatch.set a (some (K.writeFlag ||| K.devreg r))
        fresh := s.fresh + 1
        trace := s.trace ++ [.frame a (K.writeFlag ||| K.devreg r) v st din] })
    ∧ (∀ stopped moving, homePollRow K a ph = some (stopped, moving) →
      foregroundStep K s = { s with
        homePhase :=
          if s.readPend = some pend
          then (if din &&& K.vzeroMask ≠ 0#32 then stopped else moving) else ph
        readPend := if s.readPend = some pend then none else some pend
        cs := s.cs.set a false
        devLatch := s.devLatch.set a (some (K.devreg .rampStat))
        fresh := s.fresh + 1
        trace := s.trace ++ [.frame a (K.devreg .rampStat) 0#32 st din] })
    ∧ (ph = .swEnable → foregroundStep K s
      = { s with homePhase := .swVmax, trace := s.trace ++ [.driverEnable a] })
    ∧ (ph = .seekYield → foregroundStep K s
      = { s with homePhase := .seekPoll, trace := s.trace ++ [.yield] })
    ∧ (ph = .retYield → foregroundStep K s
      = { s with homePhase := .retPoll, trace := s.trace ++ [.yield] })
    ∧ (ph = .done → foregroundStep K s = { s with
      homePhase := .idle, fgOp := none, homeAxis := none, homeParams := none
      pos := s.pos.set a p.retract })

/-- Homing ends: with `k1` seek polls and `k2` retract polls that find the axis moving and then one each that
finds it stopped, the switch-based protocol is over after `16 + 3 * (k1 + k2)` foreground steps and the
stall-based one after one more, having sent exactly the frames of its list, with the axis counter at the
retract position. The draws are the numbered free values: a frame takes one, and a poll's value is that of
its second frame (44 R220, R229, R233, R236). The numbering of the draws, the open read and the parameters
kept in the state are the model's (logs 5, 12, 13). -/
def Obligations.HomingRunsToItsEnd : Prop :=
  ∀ (K : Params) (a : Axis) (p : HomeParams) (s : State) (k1 k2 : Nat),
    homing s a p (if K.stallHoming.get a then .stSmoothOff else .swEnable) → s.readPend = none →
    (∀ j < k1, ¬ stoppedAt K a (s.fresh + armingWrites K a + 2 * j + 1)) →
    stoppedAt K a (s.fresh + armingWrites K a + 2 * k1 + 1) →
    (∀ j < k2, ¬ stoppedAt K a (s.fresh + armingWrites K a + 2 * k1 + 7 + 2 * j + 1)) →
    stoppedAt K a (s.fresh + armingWrites K a + 2 * k1 + 7 + 2 * k2 + 1) →
    let t := (foregroundStep K)^[(if K.stallHoming.get a then 17 else 16) + 3 * (k1 + k2)] s
    t.fgOp = none ∧ t.homePhase = .idle ∧ t.homeAxis = none ∧ t.pos = s.pos.set a p.retract
    ∧ t.dirmult = s.dirmult ∧ t.snap = s.snap
    ∧ ∃ evs : List Event, t.trace = s.trace ++ evs ∧ evs.map Event.sent = homingSent K a p k1 k2

/-- Homing without end: while no status read shows the zero-velocity bit, the seek polls and yields for
ever, STATUS stays busy and the counter is never written (44 R220, R231, R232). The numbering of the draws,
the open read and the parameters kept in the state are the model's (logs 5, 12, 13). -/
def Obligations.UnreachedEndstopPollsForever : Prop :=
  ∀ (K : Params) (a : Axis) (p : HomeParams) (s : State), homing s a p .seekPoll →
    s.readPend = none →
    (∀ n, ¬ stoppedAt K a n) →
    ∀ k : Nat, let t := (foregroundStep K)^[3 * k] s
      homing t a p .seekPoll ∧ t.readPend = none ∧ t.busy = true ∧ t.pos = s.pos
      ∧ ∃ evs : List Event, t.trace = s.trace ++ evs
        ∧ evs.map Event.sent = (List.replicate k [sentPoll K a, sentPoll K a, .yield]).flatten

/-- The argument is read at issue: a write of `ARG0` while a command runs changes nothing the command
does. -/
def Obligations.ArgumentReadAtIssue : Prop :=
  ∀ (K : Params) (s : State) (v : Word),
    foregroundStep K { s with arg0 := v } = { foregroundStep K s with arg0 := v }

/-- ENDSTOP: the issue step, then the two frames of one read; `RESULT` is 1 where the value read meets the
mask and 0 elsewhere; STATUS is busy until the end. Where the operands stand is the model's (log 13), as is
that no read is open at the issue, one issued by itself being given up (log 12), and the numbering of the
draws (log 5). -/
def Obligations.EndstopReadsStatusRegister : Prop :=
  ∀ (a : Axis) (s : State), acceptsCommand s →
    let s1 : State :=
      { s with fgOp := some .endstop, endCall := some ⟨a, s.arg0⟩, readPend := none }
    exec (.endstop a) s = .next s1
    ∧ ∀ K : Params,
      let v := K.oracle (s.fresh + 1) a (K.devreg .rampStat &&& 0x7F#8)
      s1.busy = true ∧ (foregroundStep K s1).busy = true
      ∧ ∃ (e1 : Event) (st : Byte), e1.sent = sentPoll K a
        ∧ foregroundStep K (foregroundStep K s1) = { s with
          endCall := none
          readPend := none
          result := if v &&& s.arg0 = 0#32 then 0#32 else 1#32
          cs := s.cs.set a false
          devLatch := s.devLatch.set a (some (K.devreg .rampStat))
          fresh := s.fresh + 2
          trace := s.trace ++ [e1, .frame a (K.devreg .rampStat) 0#32 st v] }

/-! ### The whole machine -/

/-- The frames. A step of an instruction ends in a state that agrees with the one before it in every field
but those `writtenBy` names for the instruction, or it records one of the instruction's faults and nothing
else; the same of every agent's step, a write to `CMD` that is admitted being its instruction's step. No step
but reset writes a direction multiplier; the snapshot and the head are written by CALC alone, the countdown
and the tail by the handler alone; CALC alone sets `full` and the handler alone clears it (41 R151). `ret`,
`fresh`, `hostData` and the fields of an operation in progress are the model's (logs 5, 10, 12, 13, 14). -/
def Obligations.OperationFrames : Prop :=
  (∀ (i : Instr) (s t : State), exec i s = .next t →
    t = writtenBy i s t ∨ onlyFault (faultsOf i) s t)
  ∧ (∀ (α : Action) (s t : State), act α s = .next t →
    t = writtenByAgent α s t ∨ onlyFault (faultsOfAgent α) s t
    ∨ ∃ (w : Word) (i : Instr), α = .hostWrite 0x00 4 w ∧ decode w 0#32 = .ok i
      ∧ i.opcode.hostIssuable = true ∧ exec i s = .next t)
  ∧ (∀ (α : Action) (s t : State), α ≠ .reset → act α s = .next t →
    t.dirmult = s.dirmult ∧ t.gie = s.gie
    ∧ (α ≠ .hostWrite 0x00 4 0x02000000#32 → t.snap = s.snap ∧ t.head = s.head)
    ∧ (α ≠ .interrupt → t.countdown = s.countdown ∧ t.tail = s.tail)
    ∧ ((∀ v, α ≠ .hostWrite 0x04 4 v) → t.arg0 = s.arg0)
    ∧ (s.full = false → t.full = true → α = .hostWrite 0x00 4 0x02000000#32)
    ∧ (s.full = true → t.full = false → α = .interrupt))

/-- An event is appended to the trace, and nothing removes one but reset (10_state.md R47, R48). -/
def Obligations.TraceOnlyGrows : Prop :=
  (∀ (e : Event) (s : State), emit e s = { s with trace := s.trace ++ [e] }) ∧
  (∀ (i : Instr) (s t : State), exec i s = .next t → s.trace <+: t.trace)
  ∧ (∀ (α : Action) (s t : State), α ≠ .reset → act α s = .next t → s.trace <+: t.trace)

/-- FIFO: seen as a queue of segments, every agent's step leaves it alone, or is a CALC that appends a
ready segment, or a dispatch that removes the oldest one and sends exactly its frames, or a reset. -/
def Obligations.RingIsFifoQueue : Prop :=
  ∀ (α : Action) (s t : State), ringWf Config.params s → act α s = .next t →
    queue Config.params t = queue Config.params s
    ∨ (α = .hostWrite 0x00 4 0x02000000#32 ∧ ∃ g : Segment, g.ready = true
      ∧ queue Config.params t = queue Config.params s ++ [g])
    ∨ (α = .interrupt ∧ ∃ g : Segment, g.ready = true ∧ t.countdown = g.duration
      ∧ queue Config.params s = g :: queue Config.params t
      ∧ ∃ evs, t.trace = s.trace ++ evs ∧ evs.map Event.sent = dispatchSent Config.params g)
    ∨ (α = .reset ∧ queue Config.params t = [])

/-- Every step keeps the ring well formed. -/
def Obligations.StepKeepsRing : Prop :=
  ∀ s t : State, ringWf Config.params s → step s = .next t → ringWf Config.params t

/-- Every step keeps the fault record: at most one fault, and its code. -/
def Obligations.StepKeepsFaultRecord : Prop :=
  ∀ s t : State, faultsWf s → step s = .next t → faultsWf t

/-- Every step of the agents, none being staged, keeps: the select lines released, no handler running, no
critical section open, interrupts enabled. -/
def Obligations.StepKeepsBetweenSteps : Prop :=
  ∀ s t : State, s.opPort = none → betweenSteps s → step s = .next t →
    t.opPort = none ∧ betweenSteps t

/-- Every step keeps the timer stopped until INIT and running from then on. -/
def Obligations.StepKeepsTimerOffUntilInit : Prop :=
  (∀ s t : State, timerWf s → step s = .next t → timerWf t)
  ∧ (∀ s : State, timerWf s → s.initDone = false →
    act .timerEvent s = .next s ∧ act .interrupt s = .next s)

/-- Every step of the agents, none being staged, keeps the sequencing state legal: between steps no
command, HOME or ENDSTOP is in progress, each with its operands and in a phase of its sub-protocol. The
fields of the operands and of the open read are the model's (logs 12, 13). -/
def Obligations.StepKeepsSequencing : Prop :=
  ∀ s t : State, s.opPort = none → sequencingWf Config.params s → step s = .next t →
    sequencingWf Config.params t

/-- No step of the agents, none being staged, records a fault that the block's own rules do not reach:
`F_RB_OVERFLOW`, `F_RB_UNDERFLOW`, `F_CS_UNBALANCED`. -/
def Obligations.StepKeepsOwnFaults : Prop :=
  ∀ s t : State, s.opPort = none → ownFaults s → step s = .next t → ownFaults t
end

