-- ==== Sys2Proof/Laws/State.lean ====
section
/-! SUPPORT. One lemma per field per named update of the state, and reads after writes of a per-axis
record, so that no later proof unfolds a record update. -/

namespace Sys2Proof

/-! ### Per-axis records -/

@[simp] theorem PerAxis.get_set_self {α : Type} (p : PerAxis α) (a : Axis) (v : α) :
    (p.set a v).get a = v := by cases a <;> rfl

@[simp] theorem PerAxis.get_set_ne {α : Type} (p : PerAxis α) {a b : Axis} (v : α) (h : a ≠ b) :
    (p.set a v).get b = p.get b := by cases a <;> cases b <;> first | rfl | exact absurd rfl h

theorem PerAxis.get_set {α : Type} (p : PerAxis α) (a b : Axis) (v : α) :
    (p.set a v).get b = if b = a then v else p.get b := by cases a <;> cases b <;> rfl

@[simp] theorem PerAxis.get_ofFn {α : Type} (f : Axis → α) (a : Axis) :
    (PerAxis.ofFn f).get a = f a := by cases a <;> rfl

@[simp] theorem PerAxis.get_const {α : Type} (v : α) (a : Axis) : (PerAxis.const v).get a = v := by
  cases a <;> rfl

@[simp] theorem PerAxis.set_get {α : Type} (p : PerAxis α) (a : Axis) : p.set a (p.get a) = p := by
  cases a <;> rfl

@[simp] theorem PerAxis.set_set {α : Type} (p : PerAxis α) (a : Axis) (v w : α) :
    (p.set a v).set a w = p.set a w := by cases a <;> rfl

theorem PerAxis.ext_get {α : Type} {p q : PerAxis α} (h : ∀ a, p.get a = q.get a) : p = q := by
  cases p; cases q
  have hx := h .x; have hy := h .y; have hz := h .z; have he := h .e
  simp only [PerAxis.get] at hx hy hz he
  subst hx hy hz he; rfl

end Sys2Proof

namespace Sys2Proof.Machine

/-! ### emit -/

@[simp] theorem emit_arg0 (e : Event) (s : State) : (emit e s).arg0 = s.arg0 := rfl
@[simp] theorem emit_result (e : Event) (s : State) : (emit e s).result = s.result := rfl
@[simp] theorem emit_fgOp (e : Event) (s : State) : (emit e s).fgOp = s.fgOp := rfl
@[simp] theorem emit_homePhase (e : Event) (s : State) : (emit e s).homePhase = s.homePhase := rfl
@[simp] theorem emit_homeAxis (e : Event) (s : State) : (emit e s).homeAxis = s.homeAxis := rfl
@[simp] theorem emit_homeParams (e : Event) (s : State) :
    (emit e s).homeParams = s.homeParams := rfl
@[simp] theorem emit_endCall (e : Event) (s : State) : (emit e s).endCall = s.endCall := rfl
@[simp] theorem emit_readPend (e : Event) (s : State) : (emit e s).readPend = s.readPend := rfl
@[simp] theorem emit_slots (e : Event) (s : State) : (emit e s).slots = s.slots := rfl
@[simp] theorem emit_head (e : Event) (s : State) : (emit e s).head = s.head := rfl
@[simp] theorem emit_tail (e : Event) (s : State) : (emit e s).tail = s.tail := rfl
@[simp] theorem emit_full (e : Event) (s : State) : (emit e s).full = s.full := rfl
@[simp] theorem emit_prodSlot (e : Event) (s : State) : (emit e s).prodSlot = s.prodSlot := rfl
@[simp] theorem emit_pos (e : Event) (s : State) : (emit e s).pos = s.pos := rfl
@[simp] theorem emit_dirmult (e : Event) (s : State) : (emit e s).dirmult = s.dirmult := rfl
@[simp] theorem emit_snap (e : Event) (s : State) : (emit e s).snap = s.snap := rfl
@[simp] theorem emit_countdown (e : Event) (s : State) : (emit e s).countdown = s.countdown := rfl
@[simp] theorem emit_tmr (e : Event) (s : State) : (emit e s).tmr = s.tmr := rfl
@[simp] theorem emit_gie (e : Event) (s : State) : (emit e s).gie = s.gie := rfl
@[simp] theorem emit_csDepth (e : Event) (s : State) : (emit e s).csDepth = s.csDepth := rfl
@[simp] theorem emit_inIsr (e : Event) (s : State) : (emit e s).inIsr = s.inIsr := rfl
@[simp] theorem emit_initDone (e : Event) (s : State) : (emit e s).initDone = s.initDone := rfl
@[simp] theorem emit_faults (e : Event) (s : State) : (emit e s).faults = s.faults := rfl
@[simp] theorem emit_firstFault (e : Event) (s : State) :
    (emit e s).firstFault = s.firstFault := rfl
@[simp] theorem emit_cs (e : Event) (s : State) : (emit e s).cs = s.cs := rfl
@[simp] theorem emit_devLatch (e : Event) (s : State) : (emit e s).devLatch = s.devLatch := rfl
@[simp] theorem emit_plan (e : Event) (s : State) : (emit e s).plan = s.plan := rfl
@[simp] theorem emit_trace (e : Event) (s : State) : (emit e s).trace = s.trace ++ [e] := rfl
@[simp] theorem emit_fresh (e : Event) (s : State) : (emit e s).fresh = s.fresh := rfl
@[simp] theorem emit_agenda (e : Event) (s : State) : (emit e s).agenda = s.agenda := rfl
@[simp] theorem emit_opPort (e : Event) (s : State) : (emit e s).opPort = s.opPort := rfl
@[simp] theorem emit_hostData (e : Event) (s : State) : (emit e s).hostData = s.hostData := rfl
@[simp] theorem emit_ret (e : Event) (s : State) : (emit e s).ret = s.ret := rfl

/-! ### csOpen -/

@[simp] theorem csOpen_arg0 (s : State) : (csOpen s).arg0 = s.arg0 := rfl
@[simp] theorem csOpen_result (s : State) : (csOpen s).result = s.result := rfl
@[simp] theorem csOpen_fgOp (s : State) : (csOpen s).fgOp = s.fgOp := rfl
@[simp] theorem csOpen_homePhase (s : State) : (csOpen s).homePhase = s.homePhase := rfl
@[simp] theorem csOpen_homeAxis (s : State) : (csOpen s).homeAxis = s.homeAxis := rfl
@[simp] theorem csOpen_homeParams (s : State) : (csOpen s).homeParams = s.homeParams := rfl
@[simp] theorem csOpen_endCall (s : State) : (csOpen s).endCall = s.endCall := rfl
@[simp] theorem csOpen_readPend (s : State) : (csOpen s).readPend = s.readPend := rfl
@[simp] theorem csOpen_slots (s : State) : (csOpen s).slots = s.slots := rfl
@[simp] theorem csOpen_head (s : State) : (csOpen s).head = s.head := rfl
@[simp] theorem csOpen_tail (s : State) : (csOpen s).tail = s.tail := rfl
@[simp] theorem csOpen_full (s : State) : (csOpen s).full = s.full := rfl
@[simp] theorem csOpen_prodSlot (s : State) : (csOpen s).prodSlot = s.prodSlot := rfl
@[simp] theorem csOpen_pos (s : State) : (csOpen s).pos = s.pos := rfl
@[simp] theorem csOpen_dirmult (s : State) : (csOpen s).dirmult = s.dirmult := rfl
@[simp] theorem csOpen_snap (s : State) : (csOpen s).snap = s.snap := rfl
@[simp] theorem csOpen_countdown (s : State) : (csOpen s).countdown = s.countdown := rfl
@[simp] theorem csOpen_tmr (s : State) : (csOpen s).tmr = s.tmr := rfl
@[simp] theorem csOpen_gie (s : State) : (csOpen s).gie = s.gie := rfl
@[simp] theorem csOpen_csDepth (s : State) : (csOpen s).csDepth = s.csDepth + 1 := rfl
@[simp] theorem csOpen_inIsr (s : State) : (csOpen s).inIsr = s.inIsr := rfl
@[simp] theorem csOpen_initDone (s : State) : (csOpen s).initDone = s.initDone := rfl
@[simp] theorem csOpen_faults (s : State) : (csOpen s).faults = s.faults := rfl
@[simp] theorem csOpen_firstFault (s : State) : (csOpen s).firstFault = s.firstFault := rfl
@[simp] theorem csOpen_cs (s : State) : (csOpen s).cs = s.cs := rfl
@[simp] theorem csOpen_devLatch (s : State) : (csOpen s).devLatch = s.devLatch := rfl
@[simp] theorem csOpen_plan (s : State) : (csOpen s).plan = s.plan := rfl
@[simp] theorem csOpen_trace (s : State) : (csOpen s).trace = s.trace := rfl
@[simp] theorem csOpen_fresh (s : State) : (csOpen s).fresh = s.fresh := rfl
@[simp] theorem csOpen_agenda (s : State) : (csOpen s).agenda = s.agenda := rfl
@[simp] theorem csOpen_opPort (s : State) : (csOpen s).opPort = s.opPort := rfl
@[simp] theorem csOpen_hostData (s : State) : (csOpen s).hostData = s.hostData := rfl
@[simp] theorem csOpen_ret (s : State) : (csOpen s).ret = s.ret := rfl

/-! ### toPhase -/

@[simp] theorem toPhase_arg0 (p : HomePhase) (s : State) : (toPhase p s).arg0 = s.arg0 := rfl
@[simp] theorem toPhase_result (p : HomePhase) (s : State) : (toPhase p s).result = s.result := rfl
@[simp] theorem toPhase_fgOp (p : HomePhase) (s : State) : (toPhase p s).fgOp = s.fgOp := rfl
@[simp] theorem toPhase_homePhase (p : HomePhase) (s : State) : (toPhase p s).homePhase = p := rfl
@[simp] theorem toPhase_homeAxis (p : HomePhase) (s : State) :
    (toPhase p s).homeAxis = s.homeAxis := rfl
@[simp] theorem toPhase_homeParams (p : HomePhase) (s : State) :
    (toPhase p s).homeParams = s.homeParams := rfl
@[simp] theorem toPhase_endCall (p : HomePhase) (s : State) :
    (toPhase p s).endCall = s.endCall := rfl
@[simp] theorem toPhase_readPend (p : HomePhase) (s : State) :
    (toPhase p s).readPend = s.readPend := rfl
@[simp] theorem toPhase_slots (p : HomePhase) (s : State) : (toPhase p s).slots = s.slots := rfl
@[simp] theorem toPhase_head (p : HomePhase) (s : State) : (toPhase p s).head = s.head := rfl
@[simp] theorem toPhase_tail (p : HomePhase) (s : State) : (toPhase p s).tail = s.tail := rfl
@[simp] theorem toPhase_full (p : HomePhase) (s : State) : (toPhase p s).full = s.full := rfl
@[simp] theorem toPhase_prodSlot (p : HomePhase) (s : State) :
    (toPhase p s).prodSlot = s.prodSlot := rfl
@[simp] theorem toPhase_pos (p : HomePhase) (s : State) : (toPhase p s).pos = s.pos := rfl
@[simp] theorem toPhase_dirmult (p : HomePhase) (s : State) :
    (toPhase p s).dirmult = s.dirmult := rfl
@[simp] theorem toPhase_snap (p : HomePhase) (s : State) : (toPhase p s).snap = s.snap := rfl
@[simp] theorem toPhase_countdown (p : HomePhase) (s : State) :
    (toPhase p s).countdown = s.countdown := rfl
@[simp] theorem toPhase_tmr (p : HomePhase) (s : State) : (toPhase p s).tmr = s.tmr := rfl
@[simp] theorem toPhase_gie (p : HomePhase) (s : State) : (toPhase p s).gie = s.gie := rfl
@[simp] theorem toPhase_csDepth (p : HomePhase) (s : State) :
    (toPhase p s).csDepth = s.csDepth := rfl
@[simp] theorem toPhase_inIsr (p : HomePhase) (s : State) : (toPhase p s).inIsr = s.inIsr := rfl
@[simp] theorem toPhase_initDone (p : HomePhase) (s : State) :
    (toPhase p s).initDone = s.initDone := rfl
@[simp] theorem toPhase_faults (p : HomePhase) (s : State) : (toPhase p s).faults = s.faults := rfl
@[simp] theorem toPhase_firstFault (p : HomePhase) (s : State) :
    (toPhase p s).firstFault = s.firstFault := rfl
@[simp] theorem toPhase_cs (p : HomePhase) (s : State) : (toPhase p s).cs = s.cs := rfl
@[simp] theorem toPhase_devLatch (p : HomePhase) (s : State) :
    (toPhase p s).devLatch = s.devLatch := rfl
@[simp] theorem toPhase_plan (p : HomePhase) (s : State) : (toPhase p s).plan = s.plan := rfl
@[simp] theorem toPhase_trace (p : HomePhase) (s : State) : (toPhase p s).trace = s.trace := rfl
@[simp] theorem toPhase_fresh (p : HomePhase) (s : State) : (toPhase p s).fresh = s.fresh := rfl
@[simp] theorem toPhase_agenda (p : HomePhase) (s : State) : (toPhase p s).agenda = s.agenda := rfl
@[simp] theorem toPhase_opPort (p : HomePhase) (s : State) : (toPhase p s).opPort = s.opPort := rfl
@[simp] theorem toPhase_hostData (p : HomePhase) (s : State) :
    (toPhase p s).hostData = s.hostData := rfl
@[simp] theorem toPhase_ret (p : HomePhase) (s : State) : (toPhase p s).ret = s.ret := rfl

/-! ### writeSlot -/

@[simp] theorem writeSlot_arg0 (i : Word) (g : Segment) (s : State) :
    (writeSlot i g s).arg0 = s.arg0 := rfl
@[simp] theorem writeSlot_result (i : Word) (g : Segment) (s : State) :
    (writeSlot i g s).result = s.result := rfl
@[simp] theorem writeSlot_fgOp (i : Word) (g : Segment) (s : State) :
    (writeSlot i g s).fgOp = s.fgOp := rfl
@[simp] theorem writeSlot_homePhase (i : Word) (g : Segment) (s : State) :
    (writeSlot i g s).homePhase = s.homePhase := rfl
@[simp] theorem writeSlot_homeAxis (i : Word) (g : Segment) (s : State) :
    (writeSlot i g s).homeAxis = s.homeAxis := rfl
@[simp] theorem writeSlot_homeParams (i : Word) (g : Segment) (s : State) :
    (writeSlot i g s).homeParams = s.homeParams := rfl
@[simp] theorem writeSlot_endCall (i : Word) (g : Segment) (s : State) :
    (writeSlot i g s).endCall = s.endCall := rfl
@[simp] theorem writeSlot_readPend (i : Word) (g : Segment) (s : State) :
    (writeSlot i g s).readPend = s.readPend := rfl
@[simp] theorem writeSlot_slots (i : Word) (g : Segment) (s : State) :
    (writeSlot i g s).slots = s.slots.set i.toNat g := rfl
@[simp] theorem writeSlot_head (i : Word) (g : Segment) (s : State) :
    (writeSlot i g s).head = s.head := rfl
@[simp] theorem writeSlot_tail (i : Word) (g : Segment) (s : State) :
    (writeSlot i g s).tail = s.tail := rfl
@[simp] theorem writeSlot_full (i : Word) (g : Segment) (s : State) :
    (writeSlot i g s).full = s.full := rfl
@[simp] theorem writeSlot_prodSlot (i : Word) (g : Segment) (s : State) :
    (writeSlot i g s).prodSlot = s.prodSlot := rfl
@[simp] theorem writeSlot_pos (i : Word) (g : Segment) (s : State) :
    (writeSlot i g s).pos = s.pos := rfl
@[simp] theorem writeSlot_dirmult (i : Word) (g : Segment) (s : State) :
    (writeSlot i g s).dirmult = s.dirmult := rfl
@[simp] theorem writeSlot_snap (i : Word) (g : Segment) (s : State) :
    (writeSlot i g s).snap = s.snap := rfl
@[simp] theorem writeSlot_countdown (i : Word) (g : Segment) (s : State) :
    (writeSlot i g s).countdown = s.countdown := rfl
@[simp] theorem writeSlot_tmr (i : Word) (g : Segment) (s : State) :
    (writeSlot i g s).tmr = s.tmr := rfl
@[simp] theorem writeSlot_gie (i : Word) (g : Segment) (s : State) :
    (writeSlot i g s).gie = s.gie := rfl
@[simp] theorem writeSlot_csDepth (i : Word) (g : Segment) (s : State) :
    (writeSlot i g s).csDepth = s.csDepth := rfl
@[simp] theorem writeSlot_inIsr (i : Word) (g : Segment) (s : State) :
    (writeSlot i g s).inIsr = s.inIsr := rfl
@[simp] theorem writeSlot_initDone (i : Word) (g : Segment) (s : State) :
    (writeSlot i g s).initDone = s.initDone := rfl
@[simp] theorem writeSlot_faults (i : Word) (g : Segment) (s : State) :
    (writeSlot i g s).faults = s.faults := rfl
@[simp] theorem writeSlot_firstFault (i : Word) (g : Segment) (s : State) :
    (writeSlot i g s).firstFault = s.firstFault := rfl
@[simp] theorem writeSlot_cs (i : Word) (g : Segment) (s : State) :
    (writeSlot i g s).cs = s.cs := rfl
@[simp] theorem writeSlot_devLatch (i : Word) (g : Segment) (s : State) :
    (writeSlot i g s).devLatch = s.devLatch := rfl
@[simp] theorem writeSlot_plan (i : Word) (g : Segment) (s : State) :
    (writeSlot i g s).plan = s.plan := rfl
@[simp] theorem writeSlot_trace (i : Word) (g : Segment) (s : State) :
    (writeSlot i g s).trace = s.trace := rfl
@[simp] theorem writeSlot_fresh (i : Word) (g : Segment) (s : State) :
    (writeSlot i g s).fresh = s.fresh := rfl
@[simp] theorem writeSlot_agenda (i : Word) (g : Segment) (s : State) :
    (writeSlot i g s).agenda = s.agenda := rfl
@[simp] theorem writeSlot_opPort (i : Word) (g : Segment) (s : State) :
    (writeSlot i g s).opPort = s.opPort := rfl
@[simp] theorem writeSlot_hostData (i : Word) (g : Segment) (s : State) :
    (writeSlot i g s).hostData = s.hostData := rfl
@[simp] theorem writeSlot_ret (i : Word) (g : Segment) (s : State) :
    (writeSlot i g s).ret = s.ret := rfl

/-! ### raiseFault -/

@[simp] theorem raiseFault_arg0 (c : FaultCode) (s : State) : (raiseFault c s).arg0 = s.arg0 := rfl
@[simp] theorem raiseFault_result (c : FaultCode) (s : State) :
    (raiseFault c s).result = s.result := rfl
@[simp] theorem raiseFault_fgOp (c : FaultCode) (s : State) : (raiseFault c s).fgOp = s.fgOp := rfl
@[simp] theorem raiseFault_homePhase (c : FaultCode) (s : State) :
    (raiseFault c s).homePhase = s.homePhase := rfl
@[simp] theorem raiseFault_homeAxis (c : FaultCode) (s : State) :
    (raiseFault c s).homeAxis = s.homeAxis := rfl
@[simp] theorem raiseFault_homeParams (c : FaultCode) (s : State) :
    (raiseFault c s).homeParams = s.homeParams := rfl
@[simp] theorem raiseFault_endCall (c : FaultCode) (s : State) :
    (raiseFault c s).endCall = s.endCall := rfl
@[simp] theorem raiseFault_readPend (c : FaultCode) (s : State) :
    (raiseFault c s).readPend = s.readPend := rfl
@[simp] theorem raiseFault_slots (c : FaultCode) (s : State) :
    (raiseFault c s).slots = s.slots := rfl
@[simp] theorem raiseFault_head (c : FaultCode) (s : State) : (raiseFault c s).head = s.head := rfl
@[simp] theorem raiseFault_tail (c : FaultCode) (s : State) : (raiseFault c s).tail = s.tail := rfl
@[simp] theorem raiseFault_full (c : FaultCode) (s : State) : (raiseFault c s).full = s.full := rfl
@[simp] theorem raiseFault_prodSlot (c : FaultCode) (s : State) :
    (raiseFault c s).prodSlot = s.prodSlot := rfl
@[simp] theorem raiseFault_pos (c : FaultCode) (s : State) : (raiseFault c s).pos = s.pos := rfl
@[simp] theorem raiseFault_dirmult (c : FaultCode) (s : State) :
    (raiseFault c s).dirmult = s.dirmult := rfl
@[simp] theorem raiseFault_snap (c : FaultCode) (s : State) : (raiseFault c s).snap = s.snap := rfl
@[simp] theorem raiseFault_countdown (c : FaultCode) (s : State) :
    (raiseFault c s).countdown = s.countdown := rfl
@[simp] theorem raiseFault_tmr (c : FaultCode) (s : State) : (raiseFault c s).tmr = s.tmr := rfl
@[simp] theorem raiseFault_gie (c : FaultCode) (s : State) : (raiseFault c s).gie = s.gie := rfl
@[simp] theorem raiseFault_csDepth (c : FaultCode) (s : State) :
    (raiseFault c s).csDepth = s.csDepth := rfl
@[simp] theorem raiseFault_inIsr (c : FaultCode) (s : State) :
    (raiseFault c s).inIsr = s.inIsr := rfl
@[simp] theorem raiseFault_initDone (c : FaultCode) (s : State) :
    (raiseFault c s).initDone = s.initDone := rfl
@[simp] theorem raiseFault_faults (c : FaultCode) (s : State) :
    (raiseFault c s).faults = insertFault c s.faults := rfl
@[simp] theorem raiseFault_firstFault (c : FaultCode) (s : State) :
    (raiseFault c s).firstFault = if s.firstFault = 0#8 then c.code else s.firstFault := rfl
@[simp] theorem raiseFault_cs (c : FaultCode) (s : State) : (raiseFault c s).cs = s.cs := rfl
@[simp] theorem raiseFault_devLatch (c : FaultCode) (s : State) :
    (raiseFault c s).devLatch = s.devLatch := rfl
@[simp] theorem raiseFault_plan (c : FaultCode) (s : State) : (raiseFault c s).plan = s.plan := rfl
@[simp] theorem raiseFault_trace (c : FaultCode) (s : State) :
    (raiseFault c s).trace = s.trace := rfl
@[simp] theorem raiseFault_fresh (c : FaultCode) (s : State) :
    (raiseFault c s).fresh = s.fresh := rfl
@[simp] theorem raiseFault_agenda (c : FaultCode) (s : State) :
    (raiseFault c s).agenda = s.agenda := rfl
@[simp] theorem raiseFault_opPort (c : FaultCode) (s : State) :
    (raiseFault c s).opPort = s.opPort := rfl
@[simp] theorem raiseFault_hostData (c : FaultCode) (s : State) :
    (raiseFault c s).hostData = s.hostData := rfl
@[simp] theorem raiseFault_ret (c : FaultCode) (s : State) : (raiseFault c s).ret = s.ret := rfl

/-! ### enterInterrupt -/

@[simp] theorem enterInterrupt_arg0 (s : State) : (enterInterrupt s).arg0 = s.arg0 := rfl
@[simp] theorem enterInterrupt_result (s : State) : (enterInterrupt s).result = s.result := rfl
@[simp] theorem enterInterrupt_fgOp (s : State) : (enterInterrupt s).fgOp = s.fgOp := rfl
@[simp] theorem enterInterrupt_homePhase (s : State) :
    (enterInterrupt s).homePhase = s.homePhase := rfl
@[simp] theorem enterInterrupt_homeAxis (s : State) :
    (enterInterrupt s).homeAxis = s.homeAxis := rfl
@[simp] theorem enterInterrupt_homeParams (s : State) :
    (enterInterrupt s).homeParams = s.homeParams := rfl
@[simp] theorem enterInterrupt_endCall (s : State) : (enterInterrupt s).endCall = s.endCall := rfl
@[simp] theorem enterInterrupt_readPend (s : State) :
    (enterInterrupt s).readPend = s.readPend := rfl
@[simp] theorem enterInterrupt_slots (s : State) : (enterInterrupt s).slots = s.slots := rfl
@[simp] theorem enterInterrupt_head (s : State) : (enterInterrupt s).head = s.head := rfl
@[simp] theorem enterInterrupt_tail (s : State) : (enterInterrupt s).tail = s.tail := rfl
@[simp] theorem enterInterrupt_full (s : State) : (enterInterrupt s).full = s.full := rfl
@[simp] theorem enterInterrupt_prodSlot (s : State) :
    (enterInterrupt s).prodSlot = s.prodSlot := rfl
@[simp] theorem enterInterrupt_pos (s : State) : (enterInterrupt s).pos = s.pos := rfl
@[simp] theorem enterInterrupt_dirmult (s : State) : (enterInterrupt s).dirmult = s.dirmult := rfl
@[simp] theorem enterInterrupt_snap (s : State) : (enterInterrupt s).snap = s.snap := rfl
@[simp] theorem enterInterrupt_countdown (s : State) :
    (enterInterrupt s).countdown = s.countdown := rfl
@[simp] theorem enterInterrupt_tmr (s : State) :
    (enterInterrupt s).tmr = { s.tmr with pending := false } := rfl
@[simp] theorem enterInterrupt_gie (s : State) : (enterInterrupt s).gie = s.gie := rfl
@[simp] theorem enterInterrupt_csDepth (s : State) : (enterInterrupt s).csDepth = s.csDepth := rfl
@[simp] theorem enterInterrupt_inIsr (s : State) : (enterInterrupt s).inIsr = true := rfl
@[simp] theorem enterInterrupt_initDone (s : State) :
    (enterInterrupt s).initDone = s.initDone := rfl
@[simp] theorem enterInterrupt_faults (s : State) : (enterInterrupt s).faults = s.faults := rfl
@[simp] theorem enterInterrupt_firstFault (s : State) :
    (enterInterrupt s).firstFault = s.firstFault := rfl
@[simp] theorem enterInterrupt_cs (s : State) : (enterInterrupt s).cs = s.cs := rfl
@[simp] theorem enterInterrupt_devLatch (s : State) :
    (enterInterrupt s).devLatch = s.devLatch := rfl
@[simp] theorem enterInterrupt_plan (s : State) : (enterInterrupt s).plan = s.plan := rfl
@[simp] theorem enterInterrupt_trace (s : State) : (enterInterrupt s).trace = s.trace := rfl
@[simp] theorem enterInterrupt_fresh (s : State) : (enterInterrupt s).fresh = s.fresh := rfl
@[simp] theorem enterInterrupt_agenda (s : State) : (enterInterrupt s).agenda = s.agenda := rfl
@[simp] theorem enterInterrupt_opPort (s : State) : (enterInterrupt s).opPort = s.opPort := rfl
@[simp] theorem enterInterrupt_hostData (s : State) :
    (enterInterrupt s).hostData = s.hostData := rfl
@[simp] theorem enterInterrupt_ret (s : State) : (enterInterrupt s).ret = s.ret := rfl

/-! ### leaveInterrupt -/

@[simp] theorem leaveInterrupt_arg0 (s : State) : (leaveInterrupt s).arg0 = s.arg0 := rfl
@[simp] theorem leaveInterrupt_result (s : State) : (leaveInterrupt s).result = s.result := rfl
@[simp] theorem leaveInterrupt_fgOp (s : State) : (leaveInterrupt s).fgOp = s.fgOp := rfl
@[simp] theorem leaveInterrupt_homePhase (s : State) :
    (leaveInterrupt s).homePhase = s.homePhase := rfl
@[simp] theorem leaveInterrupt_homeAxis (s : State) :
    (leaveInterrupt s).homeAxis = s.homeAxis := rfl
@[simp] theorem leaveInterrupt_homeParams (s : State) :
    (leaveInterrupt s).homeParams = s.homeParams := rfl
@[simp] theorem leaveInterrupt_endCall (s : State) : (leaveInterrupt s).endCall = s.endCall := rfl
@[simp] theorem leaveInterrupt_readPend (s : State) :
    (leaveInterrupt s).readPend = s.readPend := rfl
@[simp] theorem leaveInterrupt_slots (s : State) : (leaveInterrupt s).slots = s.slots := rfl
@[simp] theorem leaveInterrupt_head (s : State) : (leaveInterrupt s).head = s.head := rfl
@[simp] theorem leaveInterrupt_tail (s : State) : (leaveInterrupt s).tail = s.tail := rfl
@[simp] theorem leaveInterrupt_full (s : State) : (leaveInterrupt s).full = s.full := rfl
@[simp] theorem leaveInterrupt_prodSlot (s : State) :
    (leaveInterrupt s).prodSlot = s.prodSlot := rfl
@[simp] theorem leaveInterrupt_pos (s : State) : (leaveInterrupt s).pos = s.pos := rfl
@[simp] theorem leaveInterrupt_dirmult (s : State) : (leaveInterrupt s).dirmult = s.dirmult := rfl
@[simp] theorem leaveInterrupt_snap (s : State) : (leaveInterrupt s).snap = s.snap := rfl
@[simp] theorem leaveInterrupt_countdown (s : State) :
    (leaveInterrupt s).countdown = s.countdown := rfl
@[simp] theorem leaveInterrupt_tmr (s : State) : (leaveInterrupt s).tmr = s.tmr := rfl
@[simp] theorem leaveInterrupt_gie (s : State) : (leaveInterrupt s).gie = s.gie := rfl
@[simp] theorem leaveInterrupt_csDepth (s : State) : (leaveInterrupt s).csDepth = s.csDepth := rfl
@[simp] theorem leaveInterrupt_inIsr (s : State) : (leaveInterrupt s).inIsr = false := rfl
@[simp] theorem leaveInterrupt_initDone (s : State) :
    (leaveInterrupt s).initDone = s.initDone := rfl
@[simp] theorem leaveInterrupt_faults (s : State) : (leaveInterrupt s).faults = s.faults := rfl
@[simp] theorem leaveInterrupt_firstFault (s : State) :
    (leaveInterrupt s).firstFault = s.firstFault := rfl
@[simp] theorem leaveInterrupt_cs (s : State) : (leaveInterrupt s).cs = s.cs := rfl
@[simp] theorem leaveInterrupt_devLatch (s : State) :
    (leaveInterrupt s).devLatch = s.devLatch := rfl
@[simp] theorem leaveInterrupt_plan (s : State) : (leaveInterrupt s).plan = s.plan := rfl
@[simp] theorem leaveInterrupt_trace (s : State) : (leaveInterrupt s).trace = s.trace := rfl
@[simp] theorem leaveInterrupt_fresh (s : State) : (leaveInterrupt s).fresh = s.fresh := rfl
@[simp] theorem leaveInterrupt_agenda (s : State) : (leaveInterrupt s).agenda = s.agenda := rfl
@[simp] theorem leaveInterrupt_opPort (s : State) : (leaveInterrupt s).opPort = s.opPort := rfl
@[simp] theorem leaveInterrupt_hostData (s : State) :
    (leaveInterrupt s).hostData = s.hostData := rfl
@[simp] theorem leaveInterrupt_ret (s : State) : (leaveInterrupt s).ret = s.ret := rfl

/-! ### planDiscard -/

@[simp] theorem planDiscard_arg0 (s : State) : (planDiscard s).arg0 = s.arg0 := rfl
@[simp] theorem planDiscard_result (s : State) : (planDiscard s).result = s.result := rfl
@[simp] theorem planDiscard_fgOp (s : State) : (planDiscard s).fgOp = s.fgOp := rfl
@[simp] theorem planDiscard_homePhase (s : State) : (planDiscard s).homePhase = s.homePhase := rfl
@[simp] theorem planDiscard_homeAxis (s : State) : (planDiscard s).homeAxis = s.homeAxis := rfl
@[simp] theorem planDiscard_homeParams (s : State) :
    (planDiscard s).homeParams = s.homeParams := rfl
@[simp] theorem planDiscard_endCall (s : State) : (planDiscard s).endCall = s.endCall := rfl
@[simp] theorem planDiscard_readPend (s : State) : (planDiscard s).readPend = s.readPend := rfl
@[simp] theorem planDiscard_slots (s : State) : (planDiscard s).slots = s.slots := rfl
@[simp] theorem planDiscard_head (s : State) : (planDiscard s).head = s.head := rfl
@[simp] theorem planDiscard_tail (s : State) : (planDiscard s).tail = s.tail := rfl
@[simp] theorem planDiscard_full (s : State) : (planDiscard s).full = s.full := rfl
@[simp] theorem planDiscard_prodSlot (s : State) : (planDiscard s).prodSlot = s.prodSlot := rfl
@[simp] theorem planDiscard_pos (s : State) : (planDiscard s).pos = s.pos := rfl
@[simp] theorem planDiscard_dirmult (s : State) : (planDiscard s).dirmult = s.dirmult := rfl
@[simp] theorem planDiscard_snap (s : State) : (planDiscard s).snap = s.snap := rfl
@[simp] theorem planDiscard_countdown (s : State) : (planDiscard s).countdown = s.countdown := rfl
@[simp] theorem planDiscard_tmr (s : State) : (planDiscard s).tmr = s.tmr := rfl
@[simp] theorem planDiscard_gie (s : State) : (planDiscard s).gie = s.gie := rfl
@[simp] theorem planDiscard_csDepth (s : State) : (planDiscard s).csDepth = s.csDepth := rfl
@[simp] theorem planDiscard_inIsr (s : State) : (planDiscard s).inIsr = s.inIsr := rfl
@[simp] theorem planDiscard_initDone (s : State) : (planDiscard s).initDone = s.initDone := rfl
@[simp] theorem planDiscard_faults (s : State) : (planDiscard s).faults = s.faults := rfl
@[simp] theorem planDiscard_firstFault (s : State) :
    (planDiscard s).firstFault = s.firstFault := rfl
@[simp] theorem planDiscard_cs (s : State) : (planDiscard s).cs = s.cs := rfl
@[simp] theorem planDiscard_devLatch (s : State) : (planDiscard s).devLatch = s.devLatch := rfl
@[simp] theorem planDiscard_plan (s : State) : (planDiscard s).plan = s.plan.tail := rfl
@[simp] theorem planDiscard_trace (s : State) :
    (planDiscard s).trace = s.trace ++ [.planDiscard] := rfl
@[simp] theorem planDiscard_fresh (s : State) : (planDiscard s).fresh = s.fresh := rfl
@[simp] theorem planDiscard_agenda (s : State) : (planDiscard s).agenda = s.agenda := rfl
@[simp] theorem planDiscard_opPort (s : State) : (planDiscard s).opPort = s.opPort := rfl
@[simp] theorem planDiscard_hostData (s : State) : (planDiscard s).hostData = s.hostData := rfl
@[simp] theorem planDiscard_ret (s : State) : (planDiscard s).ret = s.ret := rfl

/-! ### startTimer -/

@[simp] theorem startTimer_arg0 (K : Params) (s : State) : (startTimer K s).arg0 = s.arg0 := rfl
@[simp] theorem startTimer_result (K : Params) (s : State) :
    (startTimer K s).result = s.result := rfl
@[simp] theorem startTimer_fgOp (K : Params) (s : State) : (startTimer K s).fgOp = s.fgOp := rfl
@[simp] theorem startTimer_homePhase (K : Params) (s : State) :
    (startTimer K s).homePhase = s.homePhase := rfl
@[simp] theorem startTimer_homeAxis (K : Params) (s : State) :
    (startTimer K s).homeAxis = s.homeAxis := rfl
@[simp] theorem startTimer_homeParams (K : Params) (s : State) :
    (startTimer K s).homeParams = s.homeParams := rfl
@[simp] theorem startTimer_endCall (K : Params) (s : State) :
    (startTimer K s).endCall = s.endCall := rfl
@[simp] theorem startTimer_readPend (K : Params) (s : State) :
    (startTimer K s).readPend = s.readPend := rfl
@[simp] theorem startTimer_slots (K : Params) (s : State) : (startTimer K s).slots = s.slots := rfl
@[simp] theorem startTimer_head (K : Params) (s : State) : (startTimer K s).head = s.head := rfl
@[simp] theorem startTimer_tail (K : Params) (s : State) : (startTimer K s).tail = s.tail := rfl
@[simp] theorem startTimer_full (K : Params) (s : State) : (startTimer K s).full = s.full := rfl
@[simp] theorem startTimer_prodSlot (K : Params) (s : State) :
    (startTimer K s).prodSlot = s.prodSlot := rfl
@[simp] theorem startTimer_pos (K : Params) (s : State) : (startTimer K s).pos = s.pos := rfl
@[simp] theorem startTimer_dirmult (K : Params) (s : State) :
    (startTimer K s).dirmult = s.dirmult := rfl
@[simp] theorem startTimer_snap (K : Params) (s : State) : (startTimer K s).snap = s.snap := rfl
@[simp] theorem startTimer_countdown (K : Params) (s : State) :
    (startTimer K s).countdown = s.countdown := rfl
@[simp] theorem startTimer_tmr (K : Params) (s : State) :
    (startTimer K s).tmr = { s.tmr with
      ctc := true, prescaler := some K.prescaler, ocr := K.ocrInit, tie := true } := rfl
@[simp] theorem startTimer_gie (K : Params) (s : State) : (startTimer K s).gie = s.gie := rfl
@[simp] theorem startTimer_csDepth (K : Params) (s : State) :
    (startTimer K s).csDepth = s.csDepth := rfl
@[simp] theorem startTimer_inIsr (K : Params) (s : State) : (startTimer K s).inIsr = s.inIsr := rfl
@[simp] theorem startTimer_initDone (K : Params) (s : State) :
    (startTimer K s).initDone = s.initDone := rfl
@[simp] theorem startTimer_faults (K : Params) (s : State) :
    (startTimer K s).faults = s.faults := rfl
@[simp] theorem startTimer_firstFault (K : Params) (s : State) :
    (startTimer K s).firstFault = s.firstFault := rfl
@[simp] theorem startTimer_cs (K : Params) (s : State) : (startTimer K s).cs = s.cs := rfl
@[simp] theorem startTimer_devLatch (K : Params) (s : State) :
    (startTimer K s).devLatch = s.devLatch := rfl
@[simp] theorem startTimer_plan (K : Params) (s : State) : (startTimer K s).plan = s.plan := rfl
@[simp] theorem startTimer_trace (K : Params) (s : State) :
    (startTimer K s).trace = s.trace ++ [.timerSet K.ocrInit] := rfl
@[simp] theorem startTimer_fresh (K : Params) (s : State) : (startTimer K s).fresh = s.fresh := rfl
@[simp] theorem startTimer_agenda (K : Params) (s : State) :
    (startTimer K s).agenda = s.agenda := rfl
@[simp] theorem startTimer_opPort (K : Params) (s : State) :
    (startTimer K s).opPort = s.opPort := rfl
@[simp] theorem startTimer_hostData (K : Params) (s : State) :
    (startTimer K s).hostData = s.hostData := rfl
@[simp] theorem startTimer_ret (K : Params) (s : State) : (startTimer K s).ret = s.ret := rfl

/-! ### rearm -/

@[simp] theorem rearm_arg0 (s : State) : (rearm s).arg0 = s.arg0 := rfl
@[simp] theorem rearm_result (s : State) : (rearm s).result = s.result := rfl
@[simp] theorem rearm_fgOp (s : State) : (rearm s).fgOp = s.fgOp := rfl
@[simp] theorem rearm_homePhase (s : State) : (rearm s).homePhase = s.homePhase := rfl
@[simp] theorem rearm_homeAxis (s : State) : (rearm s).homeAxis = s.homeAxis := rfl
@[simp] theorem rearm_homeParams (s : State) : (rearm s).homeParams = s.homeParams := rfl
@[simp] theorem rearm_endCall (s : State) : (rearm s).endCall = s.endCall := rfl
@[simp] theorem rearm_readPend (s : State) : (rearm s).readPend = s.readPend := rfl
@[simp] theorem rearm_slots (s : State) : (rearm s).slots = s.slots := rfl
@[simp] theorem rearm_head (s : State) : (rearm s).head = s.head := rfl
@[simp] theorem rearm_tail (s : State) : (rearm s).tail = s.tail := rfl
@[simp] theorem rearm_full (s : State) : (rearm s).full = s.full := rfl
@[simp] theorem rearm_prodSlot (s : State) : (rearm s).prodSlot = s.prodSlot := rfl
@[simp] theorem rearm_pos (s : State) : (rearm s).pos = s.pos := rfl
@[simp] theorem rearm_dirmult (s : State) : (rearm s).dirmult = s.dirmult := rfl
@[simp] theorem rearm_snap (s : State) : (rearm s).snap = s.snap := rfl
@[simp] theorem rearm_countdown (s : State) :
    (rearm s).countdown = s.countdown - umin s.countdown Config.chunkMax := rfl
@[simp] theorem rearm_tmr (s : State) :
    (rearm s).tmr = { s.tmr with
      ocr := (umin s.countdown Config.chunkMax).truncate 16 } := rfl
@[simp] theorem rearm_gie (s : State) : (rearm s).gie = s.gie := rfl
@[simp] theorem rearm_csDepth (s : State) : (rearm s).csDepth = s.csDepth := rfl
@[simp] theorem rearm_inIsr (s : State) : (rearm s).inIsr = s.inIsr := rfl
@[simp] theorem rearm_initDone (s : State) : (rearm s).initDone = s.initDone := rfl
@[simp] theorem rearm_faults (s : State) : (rearm s).faults = s.faults := rfl
@[simp] theorem rearm_firstFault (s : State) : (rearm s).firstFault = s.firstFault := rfl
@[simp] theorem rearm_cs (s : State) : (rearm s).cs = s.cs := rfl
@[simp] theorem rearm_devLatch (s : State) : (rearm s).devLatch = s.devLatch := rfl
@[simp] theorem rearm_plan (s : State) : (rearm s).plan = s.plan := rfl
@[simp] theorem rearm_trace (s : State) :
    (rearm s).trace = s.trace ++ [.timerSet ((umin s.countdown Config.chunkMax).truncate 16)] := rfl
@[simp] theorem rearm_fresh (s : State) : (rearm s).fresh = s.fresh := rfl
@[simp] theorem rearm_agenda (s : State) : (rearm s).agenda = s.agenda := rfl
@[simp] theorem rearm_opPort (s : State) : (rearm s).opPort = s.opPort := rfl
@[simp] theorem rearm_hostData (s : State) : (rearm s).hostData = s.hostData := rfl
@[simp] theorem rearm_ret (s : State) : (rearm s).ret = s.ret := rfl

/-! ### raiseInterrupt -/

@[simp] theorem raiseInterrupt_arg0 (s : State) : (raiseInterrupt s).arg0 = s.arg0 := rfl
@[simp] theorem raiseInterrupt_result (s : State) : (raiseInterrupt s).result = s.result := rfl
@[simp] theorem raiseInterrupt_fgOp (s : State) : (raiseInterrupt s).fgOp = s.fgOp := rfl
@[simp] theorem raiseInterrupt_homePhase (s : State) :
    (raiseInterrupt s).homePhase = s.homePhase := rfl
@[simp] theorem raiseInterrupt_homeAxis (s : State) :
    (raiseInterrupt s).homeAxis = s.homeAxis := rfl
@[simp] theorem raiseInterrupt_homeParams (s : State) :
    (raiseInterrupt s).homeParams = s.homeParams := rfl
@[simp] theorem raiseInterrupt_endCall (s : State) : (raiseInterrupt s).endCall = s.endCall := rfl
@[simp] theorem raiseInterrupt_readPend (s : State) :
    (raiseInterrupt s).readPend = s.readPend := rfl
@[simp] theorem raiseInterrupt_slots (s : State) : (raiseInterrupt s).slots = s.slots := rfl
@[simp] theorem raiseInterrupt_head (s : State) : (raiseInterrupt s).head = s.head := rfl
@[simp] theorem raiseInterrupt_tail (s : State) : (raiseInterrupt s).tail = s.tail := rfl
@[simp] theorem raiseInterrupt_full (s : State) : (raiseInterrupt s).full = s.full := rfl
@[simp] theorem raiseInterrupt_prodSlot (s : State) :
    (raiseInterrupt s).prodSlot = s.prodSlot := rfl
@[simp] theorem raiseInterrupt_pos (s : State) : (raiseInterrupt s).pos = s.pos := rfl
@[simp] theorem raiseInterrupt_dirmult (s : State) : (raiseInterrupt s).dirmult = s.dirmult := rfl
@[simp] theorem raiseInterrupt_snap (s : State) : (raiseInterrupt s).snap = s.snap := rfl
@[simp] theorem raiseInterrupt_countdown (s : State) :
    (raiseInterrupt s).countdown = s.countdown := rfl
@[simp] theorem raiseInterrupt_tmr (s : State) :
    (raiseInterrupt s).tmr = { s.tmr with pending := true, tie := true } := rfl
@[simp] theorem raiseInterrupt_gie (s : State) : (raiseInterrupt s).gie = true := rfl
@[simp] theorem raiseInterrupt_csDepth (s : State) : (raiseInterrupt s).csDepth = 0 := rfl
@[simp] theorem raiseInterrupt_inIsr (s : State) : (raiseInterrupt s).inIsr = false := rfl
@[simp] theorem raiseInterrupt_initDone (s : State) :
    (raiseInterrupt s).initDone = s.initDone := rfl
@[simp] theorem raiseInterrupt_faults (s : State) : (raiseInterrupt s).faults = s.faults := rfl
@[simp] theorem raiseInterrupt_firstFault (s : State) :
    (raiseInterrupt s).firstFault = s.firstFault := rfl
@[simp] theorem raiseInterrupt_cs (s : State) : (raiseInterrupt s).cs = s.cs := rfl
@[simp] theorem raiseInterrupt_devLatch (s : State) :
    (raiseInterrupt s).devLatch = s.devLatch := rfl
@[simp] theorem raiseInterrupt_plan (s : State) : (raiseInterrupt s).plan = s.plan := rfl
@[simp] theorem raiseInterrupt_trace (s : State) : (raiseInterrupt s).trace = s.trace := rfl
@[simp] theorem raiseInterrupt_fresh (s : State) : (raiseInterrupt s).fresh = s.fresh := rfl
@[simp] theorem raiseInterrupt_agenda (s : State) : (raiseInterrupt s).agenda = s.agenda := rfl
@[simp] theorem raiseInterrupt_opPort (s : State) : (raiseInterrupt s).opPort = s.opPort := rfl
@[simp] theorem raiseInterrupt_hostData (s : State) :
    (raiseInterrupt s).hostData = s.hostData := rfl
@[simp] theorem raiseInterrupt_ret (s : State) : (raiseInterrupt s).ret = s.ret := rfl

/-! ### busXfer -/

@[simp] theorem busXfer_arg0 (K : Params) (a : Axis) (ab : Byte) (v : Word) (s : State) :
    (busXfer K a ab v s).arg0 = s.arg0 := rfl
@[simp] theorem busXfer_result (K : Params) (a : Axis) (ab : Byte) (v : Word) (s : State) :
    (busXfer K a ab v s).result = s.result := rfl
@[simp] theorem busXfer_fgOp (K : Params) (a : Axis) (ab : Byte) (v : Word) (s : State) :
    (busXfer K a ab v s).fgOp = s.fgOp := rfl
@[simp] theorem busXfer_homePhase (K : Params) (a : Axis) (ab : Byte) (v : Word) (s : State) :
    (busXfer K a ab v s).homePhase = s.homePhase := rfl
@[simp] theorem busXfer_homeAxis (K : Params) (a : Axis) (ab : Byte) (v : Word) (s : State) :
    (busXfer K a ab v s).homeAxis = s.homeAxis := rfl
@[simp] theorem busXfer_homeParams (K : Params) (a : Axis) (ab : Byte) (v : Word) (s : State) :
    (busXfer K a ab v s).homeParams = s.homeParams := rfl
@[simp] theorem busXfer_endCall (K : Params) (a : Axis) (ab : Byte) (v : Word) (s : State) :
    (busXfer K a ab v s).endCall = s.endCall := rfl
@[simp] theorem busXfer_readPend (K : Params) (a : Axis) (ab : Byte) (v : Word) (s : State) :
    (busXfer K a ab v s).readPend = s.readPend := rfl
@[simp] theorem busXfer_slots (K : Params) (a : Axis) (ab : Byte) (v : Word) (s : State) :
    (busXfer K a ab v s).slots = s.slots := rfl
@[simp] theorem busXfer_head (K : Params) (a : Axis) (ab : Byte) (v : Word) (s : State) :
    (busXfer K a ab v s).head = s.head := rfl
@[simp] theorem busXfer_tail (K : Params) (a : Axis) (ab : Byte) (v : Word) (s : State) :
    (busXfer K a ab v s).tail = s.tail := rfl
@[simp] theorem busXfer_full (K : Params) (a : Axis) (ab : Byte) (v : Word) (s : State) :
    (busXfer K a ab v s).full = s.full := rfl
@[simp] theorem busXfer_prodSlot (K : Params) (a : Axis) (ab : Byte) (v : Word) (s : State) :
    (busXfer K a ab v s).prodSlot = s.prodSlot := rfl
@[simp] theorem busXfer_pos (K : Params) (a : Axis) (ab : Byte) (v : Word) (s : State) :
    (busXfer K a ab v s).pos = s.pos := rfl
@[simp] theorem busXfer_dirmult (K : Params) (a : Axis) (ab : Byte) (v : Word) (s : State) :
    (busXfer K a ab v s).dirmult = s.dirmult := rfl
@[simp] theorem busXfer_snap (K : Params) (a : Axis) (ab : Byte) (v : Word) (s : State) :
    (busXfer K a ab v s).snap = s.snap := rfl
@[simp] theorem busXfer_countdown (K : Params) (a : Axis) (ab : Byte) (v : Word) (s : State) :
    (busXfer K a ab v s).countdown = s.countdown := rfl
@[simp] theorem busXfer_tmr (K : Params) (a : Axis) (ab : Byte) (v : Word) (s : State) :
    (busXfer K a ab v s).tmr = s.tmr := rfl
@[simp] theorem busXfer_gie (K : Params) (a : Axis) (ab : Byte) (v : Word) (s : State) :
    (busXfer K a ab v s).gie = s.gie := rfl
@[simp] theorem busXfer_csDepth (K : Params) (a : Axis) (ab : Byte) (v : Word) (s : State) :
    (busXfer K a ab v s).csDepth = s.csDepth := rfl
@[simp] theorem busXfer_inIsr (K : Params) (a : Axis) (ab : Byte) (v : Word) (s : State) :
    (busXfer K a ab v s).inIsr = s.inIsr := rfl
@[simp] theorem busXfer_initDone (K : Params) (a : Axis) (ab : Byte) (v : Word) (s : State) :
    (busXfer K a ab v s).initDone = s.initDone := rfl
@[simp] theorem busXfer_faults (K : Params) (a : Axis) (ab : Byte) (v : Word) (s : State) :
    (busXfer K a ab v s).faults = s.faults := rfl
@[simp] theorem busXfer_firstFault (K : Params) (a : Axis) (ab : Byte) (v : Word) (s : State) :
    (busXfer K a ab v s).firstFault = s.firstFault := rfl
@[simp] theorem busXfer_devLatch (K : Params) (a : Axis) (ab : Byte) (v : Word) (s : State) :
    (busXfer K a ab v s).devLatch = s.devLatch.set a (some ab) := rfl
@[simp] theorem busXfer_plan (K : Params) (a : Axis) (ab : Byte) (v : Word) (s : State) :
    (busXfer K a ab v s).plan = s.plan := rfl
@[simp] theorem busXfer_trace (K : Params) (a : Axis) (ab : Byte) (v : Word) (s : State) :
    (busXfer K a ab v s).trace = s.trace ++ [.frame a ab v (frameStatus K a s) (frameAnswer K a s)] := rfl
@[simp] theorem busXfer_fresh (K : Params) (a : Axis) (ab : Byte) (v : Word) (s : State) :
    (busXfer K a ab v s).fresh = s.fresh + 1 := rfl
@[simp] theorem busXfer_agenda (K : Params) (a : Axis) (ab : Byte) (v : Word) (s : State) :
    (busXfer K a ab v s).agenda = s.agenda := rfl
@[simp] theorem busXfer_opPort (K : Params) (a : Axis) (ab : Byte) (v : Word) (s : State) :
    (busXfer K a ab v s).opPort = s.opPort := rfl
@[simp] theorem busXfer_hostData (K : Params) (a : Axis) (ab : Byte) (v : Word) (s : State) :
    (busXfer K a ab v s).hostData = s.hostData := rfl
@[simp] theorem busXfer_ret (K : Params) (a : Axis) (ab : Byte) (v : Word) (s : State) :
    (busXfer K a ab v s).ret = s.ret := rfl
@[simp] theorem busXfer_cs (K : Params) (a : Axis) (ab : Byte) (v : Word) (s : State) :
    (busXfer K a ab v s).cs = s.cs.set a false := by
  simp only [busXfer, emit, PerAxis.set_set]

end Sys2Proof.Machine
end

