-- ==== Sys2Proof/Laws/Ops.lean ====
section
/-! SUPPORT. For each shared operation one lemma that says once everything it can do. -/

namespace Sys2Proof.Machine

/-! ### Faults and units -/

theorem faulted_iff (s : State) : s.faulted = true ↔ s.faults ≠ [] := by
  simp [State.faulted]

theorem not_faulted_iff (s : State) : s.faulted = false ↔ s.faults = [] := by
  simp [State.faulted]

@[simp] theorem insertFault_nil (c : FaultCode) : insertFault c [] = [c] := rfl

theorem insertFault_ne_nil (c : FaultCode) (l : List FaultCode) : insertFault c l ≠ [] := by
  cases l with
  | nil => simp
  | cons d ds => simp only [insertFault]; split <;> [skip; split] <;> simp

/-- Every fault has a code other than 0 (60_exceptions.md R270). -/
theorem code_ne_zero (c : FaultCode) : c.code ≠ 0#8 := by cases c <;> decide

/-- A fault raised where none is recorded records that one and changes nothing else. -/
theorem raiseFault_faultFree (c : FaultCode) (s : State) (h : faultFree s) :
    raiseFault c s = withFault c s := by
  simp [raiseFault, withFault, h.1, h.2]

/-- All a step of a unit can do: nothing where a fault is recorded; else what its body does, or its
fault. -/
theorem unitStep_cases (body : State → Except FaultCode State) (s : State) :
    (s.faults ≠ [] ∧ unitStep body s = s)
    ∨ (s.faults = [] ∧ ∃ t, body s = .ok t ∧ unitStep body s = t)
    ∨ (s.faults = [] ∧ ∃ c, body s = .error c ∧ unitStep body s = raiseFault c s) := by
  by_cases hf : s.faults = []
  · right
    cases h : body s with
    | ok t => left; exact ⟨hf, t, rfl, by simp [unitStep, settle, h, (not_faulted_iff s).2 hf]⟩
    | error c => right; exact ⟨hf, c, rfl, by simp [unitStep, settle, h, (not_faulted_iff s).2 hf]⟩
  · left; exact ⟨hf, by simp [unitStep, (faulted_iff s).2 hf]⟩

theorem unitStep_faulted (body : State → Except FaultCode State) (s : State) (h : s.faults ≠ []) :
    unitStep body s = s := by simp [unitStep, (faulted_iff s).2 h]

theorem unitStep_running (body : State → Except FaultCode State) {s : State} (h : s.faults = []) :
    unitStep body s = settle s (body s) := by simp [unitStep, (not_faulted_iff s).2 h]

theorem unitStep_ok {body : State → Except FaultCode State} {s t : State} (h : s.faults = [])
    (hb : body s = .ok t) : unitStep body s = t := by
  simp [unitStep, settle, hb, (not_faulted_iff s).2 h]

theorem unitStep_error {body : State → Except FaultCode State} {s : State} {c : FaultCode}
    (h : faultFree s) (hb : body s = .error c) : unitStep body s = withFault c s := by
  simp [unitStep, settle, hb, (not_faulted_iff s).2 h.1, raiseFault_faultFree c s h]

/-- All the checks of 30_encoding.md R104 on the state can answer. -/
theorem issueChecks_cases (early : Bool) (s : State) :
    (s.fgOp.isSome = true ∧ issueChecks early s = .error .busy)
    ∨ (s.fgOp = none ∧ early = false ∧ s.initDone = false
      ∧ issueChecks early s = .error .notInitialised)
    ∨ (s.fgOp = none ∧ (early = true ∨ s.initDone = true) ∧ issueChecks early s = .ok ()) := by
  unfold issueChecks
  cases h : s.fgOp <;> cases early <;> cases hi : s.initDone <;> simp

/-- A host command that passes the checks does what its body does, or records its fault. -/
theorem hostCommand_accepted {early : Bool} {body : State → Except FaultCode State} {s : State}
    (hf : s.faults = []) (ho : s.fgOp = none) (hi : early = true ∨ s.initDone = true) :
    hostCommand early body s = settle s (body s) := by
  have : issueChecks early s = .ok () := by
    rcases issueChecks_cases early s with h | h | h
    · simp [ho] at h
    · rcases hi with hi | hi <;> simp [hi] at h
    · exact h.2.2
  simp [hostCommand, unitStep, (not_faulted_iff s).2 hf, this, bind, Except.bind]

theorem hostCommand_ok {body : State → Except FaultCode State} {s t : State}
    (h : acceptsCommand s) (hb : body s = .ok t) : hostCommand false body s = t := by
  rw [hostCommand_accepted h.1 h.2.1 (.inr h.2.2), hb]; rfl

theorem hostCommand_error {body : State → Except FaultCode State} {s : State} {c : FaultCode}
    (h : acceptsCommand s) (hz : s.firstFault = 0#8) (hb : body s = .error c) :
    hostCommand false body s = withFault c s := by
  rw [hostCommand_accepted h.1 h.2.1 (.inr h.2.2), hb]
  exact raiseFault_faultFree c s ⟨h.1, hz⟩

theorem hostCommand_busy (early : Bool) (body : State → Except FaultCode State) {s : State}
    (h : faultFree s) (ho : s.fgOp.isSome = true) :
    hostCommand early body s = withFault .busy s := by
  refine unitStep_error h ?_
  simp [issueChecks, ho, bind, Except.bind]

theorem hostCommand_notInitialised (body : State → Except FaultCode State) {s : State}
    (h : faultFree s) (ho : s.fgOp = none) (hi : s.initDone = false) :
    hostCommand false body s = withFault .notInitialised s := by
  refine unitStep_error h ?_
  simp [issueChecks, ho, hi, bind, Except.bind]

theorem hostCommand_faulted (early : Bool) (body : State → Except FaultCode State) {s : State}
    (h : s.faults ≠ []) : hostCommand early body s = s := unitStep_faulted _ s h

/-- All a host command can do: nothing, its body's effect, its body's fault, or one of the two faults of
issue. -/
theorem hostCommand_cases (early : Bool) (body : State → Except FaultCode State) (s : State) :
    (s.faults ≠ [] ∧ hostCommand early body s = s)
    ∨ (s.faults = [] ∧ s.fgOp = none ∧ (early = true ∨ s.initDone = true)
      ∧ ∃ t, body s = .ok t ∧ hostCommand early body s = t)
    ∨ (s.faults = [] ∧ s.fgOp = none ∧ (early = true ∨ s.initDone = true)
      ∧ ∃ c, body s = .error c ∧ hostCommand early body s = raiseFault c s)
    ∨ (s.faults = [] ∧ ∃ c, (c = .busy ∨ (early = false ∧ c = .notInitialised))
      ∧ hostCommand early body s = raiseFault c s) := by
  by_cases hf : s.faults = []
  · right
    rcases issueChecks_cases early s with ⟨_, h⟩ | ⟨_, he, _, h⟩ | ⟨ho, hi, h⟩
    · refine .inr (.inr ⟨hf, .busy, .inl rfl, ?_⟩)
      simp [hostCommand, unitStep, (not_faulted_iff s).2 hf, h, settle, bind, Except.bind]
    · refine .inr (.inr ⟨hf, .notInitialised, .inr ⟨he, rfl⟩, ?_⟩)
      simp [hostCommand, unitStep, (not_faulted_iff s).2 hf, h, settle, bind, Except.bind]
    · rw [hostCommand_accepted hf ho hi]
      cases hb : body s with
      | ok t => exact .inl ⟨hf, ho, hi, t, rfl, rfl⟩
      | error c => exact .inr (.inl ⟨hf, ho, hi, c, rfl, rfl⟩)
  · exact .inl ⟨hf, unitStep_faulted _ s hf⟩

/-! ### Critical sections -/

theorem csClose_of_pos {s : State} (h : s.csDepth ≠ 0) :
    csClose s = .ok { s with csDepth := s.csDepth - 1 } := by simp [csClose, h]

/-- A critical section whose body keeps the depth does what its body does in the state with the section
open, and closes it. -/
theorem atomically_ok {body : State → Except FaultCode State} {s t : State}
    (hb : body (csOpen s) = .ok t) (hd : t.csDepth = s.csDepth + 1) :
    atomically body s = .ok { t with csDepth := s.csDepth } := by
  simp [atomically, hb, csClose, hd, bind, Except.bind]

theorem atomically_error {body : State → Except FaultCode State} {s : State} {c : FaultCode}
    (hb : body (csOpen s) = .error c) : atomically body s = .error c := by
  simp [atomically, hb, bind, Except.bind]

/-- A write of a position counter in a critical section. -/
@[simp] theorem atomically_pos (f : State → PerAxis Word) (s : State) :
    atomically (fun t => .ok { t with pos := f t }) s = .ok { s with pos := f (csOpen s) } := rfl

/-! ### Bus -/

/-- The frame a register write puts in the trace. -/
def frameOf (K : Params) (a : Axis) (ab : Byte) (v : Word) (s : State) : Event :=
  .frame a ab v (frameStatus K a s) (frameAnswer K a s)

/-- Everything a frame does (40_bus_transport.md R130). -/
theorem busXfer_eq (K : Params) (a : Axis) (ab : Byte) (v : Word) (s : State) :
    busXfer K a ab v s = { s with
      cs := s.cs.set a false
      devLatch := s.devLatch.set a (some ab)
      fresh := s.fresh + 1
      trace := s.trace ++ [frameOf K a ab v s] } := by
  simp [busXfer, emit, frameOf]

theorem devWrite_eq (K : Params) (a : Axis) (r : DevReg) (v : Word) (s : State) :
    devWrite K a r v s = { s with
      cs := s.cs.set a false
      devLatch := s.devLatch.set a (some (K.writeFlag ||| K.devreg r))
      fresh := s.fresh + 1
      trace := s.trace ++ [frameOf K a (K.writeFlag ||| K.devreg r) v s] } :=
  busXfer_eq K a _ v s

/-- The select lines after a sequence of writes. -/
def csAfter (ws : List RegWrite) (cs : PerAxis Bool) : PerAxis Bool :=
  ws.foldl (fun c w => c.set w.axis false) cs

/-- The latches after a sequence of writes. -/
def latchAfter (K : Params) (ws : List RegWrite) (l : PerAxis (Option Byte)) :
    PerAxis (Option Byte) :=
  ws.foldl (fun l w => l.set w.axis (some (K.writeFlag ||| K.devreg w.reg))) l

/-- Everything a sequence of register writes does: its frames, in order, and nothing but them, the latches
and the count of free values. -/
theorem writeAll_spec (K : Params) (ws : List RegWrite) (s : State) :
    ∃ evs : List Event, evs.map Event.sent = ws.map (fun w => sentWrite K w.axis w.reg w.value)
      ∧ writeAll K ws s = { s with
        cs := csAfter ws s.cs
        devLatch := latchAfter K ws s.devLatch
        fresh := s.fresh + ws.length
        trace := s.trace ++ evs } := by
  induction ws generalizing s with
  | nil => exact ⟨[], rfl, by simp [writeAll, csAfter, latchAfter]⟩
  | cons w ws ih =>
    obtain ⟨evs, hs, he⟩ := ih (devWrite K w.axis w.reg w.value s)
    refine ⟨frameOf K w.axis (K.writeFlag ||| K.devreg w.reg) w.value s :: evs, ?_, ?_⟩
    · simp [hs, frameOf, Event.sent, sentWrite]
    · have : writeAll K (w :: ws) s = writeAll K ws (devWrite K w.axis w.reg w.value s) := rfl
      rw [this, he, devWrite_eq]
      simp [csAfter, latchAfter]; omega

/-- A step of a foreground read: the first frame, or the second with the value read. -/
theorem busReadStep_cases (K : Params) (a : Axis) (r : RegAddr) (s : State) :
    (s.readPend = some ⟨a, r⟩
      ∧ busReadStep K a r s = (some (frameAnswer K a s), busReadSecond K a r s))
    ∨ (s.readPend ≠ some ⟨a, r⟩ ∧ busReadStep K a r s = (none, busReadFirst K a r s)) := by
  by_cases h : s.readPend = some ⟨a, r⟩ <;> simp [busReadStep, h]

/-! ### Ring -/

theorem n_eq (K : Params) : K.n.toNat = 2 ^ K.logN.val := by
  have hl := Nat.pow_lt_pow_right (a := 2) (by norm_num) K.logN.isLt
  simp only [Params.n, BitVec.toNat_shiftLeft, BitVec.toNat_ofNat, Nat.shiftLeft_eq]
  rw [Nat.mod_eq_of_lt] <;> simp at hl ⊢
  omega

theorem n_pos (K : Params) : 0 < K.n.toNat := by rw [n_eq]; positivity

/-- The bitmask with `N - 1` is the remainder by `N` (41_ring_buffer.md R150). -/
theorem mask_toNat (K : Params) (w : Word) :
    (w &&& (K.n - 1#32)).toNat = w.toNat % K.n.toNat := by
  have h1 : (K.n - 1#32).toNat = 2 ^ K.logN.val - 1 := by
    have h := n_eq K
    have hp : 0 < 2 ^ K.logN.val := by positivity
    have := K.n.isLt
    rw [BitVec.toNat_sub, h]
    simp; omega
  rw [BitVec.toNat_and, h1, Nat.and_two_pow_sub_one_eq_mod, n_eq]

theorem n_dvd (K : Params) : K.n.toNat ∣ 2 ^ 32 := by
  rw [n_eq]; exact pow_dvd_pow _ (by omega)

/-- The successor of an index, as a number (41_ring_buffer.md R150). -/
theorem ringNext_toNat (K : Params) (i : Word) :
    (ringNext K i).toNat = (i.toNat + 1) % K.n.toNat := by
  rw [ringNext, mask_toNat, BitVec.toNat_add]
  exact Nat.mod_mod_of_dvd _ (n_dvd K)

theorem ringNext_lt (K : Params) (i : Word) : (ringNext K i).toNat < K.n.toNat := by
  rw [ringNext_toNat]; exact Nat.mod_lt _ (n_pos K)

/-- The occupancy of a well-formed ring, as a number (41_ring_buffer.md R158). -/
theorem occupancy_eq (K : Params) (s : State) (h : ringWf K s) :
    occupancy K s
      = if s.full then K.n.toNat
        else (s.head.toNat + K.n.toNat - s.tail.toNat) % K.n.toNat := by
  unfold occupancy ringCount
  split
  · rfl
  · obtain ⟨_, h1, h2, _⟩ := h
    have hle : K.n.toNat ≤ 2 ^ 32 := Nat.le_of_dvd (by norm_num) (n_dvd K)
    rw [mask_toNat, BitVec.toNat_sub, Nat.mod_mod_of_dvd _ (n_dvd K)]
    obtain ⟨c, hc⟩ := Nat.dvd_sub (n_dvd K) (dvd_refl K.n.toNat)
    have e : 2 ^ 32 - s.tail.toNat + s.head.toNat
        = (s.head.toNat + K.n.toNat - s.tail.toNat) + (2 ^ 32 - K.n.toNat) := by omega
    rw [e, hc, Nat.add_mul_mod_self_left]

/-- What RB_TRY_ENQUEUE does (41_ring_buffer.md R152). -/
theorem rbTryEnqueue_eq (s : State) :
    rbTryEnqueue s = .ok (if s.full then s else { s with prodSlot := some s.head }) := by
  by_cases h : s.full = true
  · rw [if_pos h]
    exact atomically_ok (t := csOpen s) (congrArg Except.ok (if_pos h)) rfl
  · rw [if_neg h]
    exact atomically_ok (t := { csOpen s with prodSlot := some s.head })
      (congrArg Except.ok (if_neg h)) rfl

/-- The indices after a commit to a ring that is not full (41_ring_buffer.md R153). -/
theorem commitIndices_eq (K : Params) (s : State) (h : s.full = false) :
    commitIndices K s = { s with
      head := ringNext K s.head, full := ringNext K s.head == s.tail, prodSlot := none } := by
  unfold commitIndices
  by_cases he : ringNext K s.head = s.tail <;> simp [he, h]

/-- What RB_COMMIT does (41_ring_buffer.md R153). -/
theorem rbCommit_cases (K : Params) (s : State) :
    (s.full = false ∧ s.prodSlot = some s.head ∧ rbCommit K s = .ok { s with
      head := ringNext K s.head, full := ringNext K s.head == s.tail, prodSlot := none })
    ∨ ((s.full = true ∨ s.prodSlot ≠ some s.head) ∧ rbCommit K s = .error .rbOverflow) := by
  by_cases h : s.full = true ∨ s.prodSlot ≠ some s.head
  · exact .inr ⟨h, atomically_error (if_pos h)⟩
  · have h' := h
    simp only [not_or, ne_eq, Bool.not_eq_true, not_not] at h'
    refine .inl ⟨h'.1, h'.2, ?_⟩
    have hb : (fun t : State => if t.full = true ∨ t.prodSlot ≠ some t.head
        then Except.error FaultCode.rbOverflow else .ok (commitIndices K t)) (csOpen s)
        = .ok (commitIndices K (csOpen s)) := if_neg h
    have hc := commitIndices_eq K (csOpen s) h'.1
    exact (atomically_ok hb (by rw [hc]; rfl)).trans (by rw [hc]; rfl)

theorem ringEmpty_iff (s : State) : s.ringEmpty = true ↔ s.head = s.tail ∧ s.full = false := by
  simp [State.ringEmpty]

theorem ringEmpty_false_iff (s : State) : s.ringEmpty = false ↔ s.head ≠ s.tail ∨ s.full = true := by
  cases h : s.full <;> simp [State.ringEmpty, h]

/-- What RB_DISCARD does (41_ring_buffer.md R155). -/
theorem rbDiscard_cases (K : Params) (s : State) :
    (s.ringEmpty = true ∧ rbDiscard K s = .error .rbUnderflow)
    ∨ (s.ringEmpty = false
      ∧ rbDiscard K s = .ok { s with tail := ringNext K s.tail, full := false }) := by
  cases h : s.ringEmpty <;> simp [rbDiscard, h]

/-! ### Calculator -/

/-- The counters after CALC with block `b`: a moving axis moves, another stays (42_segment_calculator.md
R174, R178). -/
def posAfter (b : Block) (s : State) : PerAxis Word :=
  .ofFn fun a => if b.steps.get a = 0#32 then s.pos.get a else movedPos s.dirmult s.pos b a

theorem updatePos_eq (b : Block) (s : State) (a : Axis) :
    updatePos b s a = .ok { s with pos := s.pos.set a ((posAfter b s).get a) } := by
  unfold updatePos posAfter
  rw [PerAxis.get_ofFn]
  split
  · rw [PerAxis.set_get]
  · rfl

/-- The four updates together. -/
theorem updateAll_eq (b : Block) (s : State) :
    Axis.all.foldlM (updatePos b) s = .ok { s with pos := posAfter b s } := by
  simp only [Axis.all, List.foldlM, updatePos_eq, bind, Except.bind, pure, Except.pure]
  rfl

/-- CALC without a free slot or without a block (42_segment_calculator.md R171). -/
theorem calcBody_noop (K : Params) (s : State) (h : s.full = true ∨ s.plan = []) :
    calcBody K s = .ok { s with prodSlot := none } := by
  unfold calcBody
  rw [rbTryEnqueue_eq]
  by_cases hf : s.full = true
  · simp [bind, Except.bind, tryEnqueueResult, hf]
  · have hp : s.plan = [] := by simpa [hf] using h
    simp [bind, Except.bind, tryEnqueueResult, hf, planGet, hp]

/-- CALC with a block that moves an axis in zero step events (42_segment_calculator.md R172). -/
theorem calcBody_bad (K : Params) (s : State) (b : Block) (rest : List Block) (hf : s.full = false)
    (hp : s.plan = b :: rest) (hb : Block.moves b = true ∧ b.eventCount = 0#32) :
    calcBody K s = .error .badBlock := by
  simp [calcBody, rbTryEnqueue_eq, bind, Except.bind, tryEnqueueResult, hf, planGet, hp, calcBlock, hb.1,
    hb.2]

/-- CALC with a free slot and a good block: everything it writes (42_segment_calculator.md R170). -/
theorem calcBody_good (K : Params) (s : State) (b : Block) (rest : List Block) (hf : s.full = false)
    (hp : s.plan = b :: rest) (hb : ¬ (Block.moves b = true ∧ b.eventCount = 0#32)) :
    calcBody K s = .ok { s with
      slots := s.slots.set s.head.toNat (buildSegment K s b)
      pos := posAfter b s
      snap := (buildSegment K s b).snapshot
      head := ringNext K s.head
      full := ringNext K s.head == s.tail
      prodSlot := none
      plan := rest
      trace := s.trace ++ [.planDiscard] } := by
  have h1 : rbTryEnqueue s = .ok { s with prodSlot := some s.head } := by simp [rbTryEnqueue_eq, hf]
  have h2 : tryEnqueueResult s = some s.head := by simp [tryEnqueueResult, hf]
  have h3 : planGet { s with prodSlot := some s.head } = some b := by simp [planGet, hp]
  obtain rfl : rest = s.plan.tail := by simp [hp]
  unfold calcBody
  rw [h1, h2]
  simp only [bind, Except.bind, h3]
  unfold calcBlock
  rw [if_neg hb, updateAll_eq]
  rcases rbCommit_cases K { s with
      prodSlot := some s.head
      slots := s.slots.set s.head.toNat (buildSegment K s b)
      pos := posAfter b s
      snap := (buildSegment K s b).snapshot } with ⟨_, _, h⟩ | ⟨h, _⟩
  · exact congrArg (fun r => r.bind fun t => Except.ok (planDiscard t)) h
  · simp [hf] at h

/-- Some axis has steps. -/
theorem moves_iff (b : Block) : Block.moves b = true ↔ ∃ a, b.steps.get a ≠ 0#32 := by
  simp only [Block.moves, Axis.all, List.any_cons, List.any_nil, Bool.or_false, Bool.or_eq_true,
    bne_iff_ne]
  constructor
  · rintro (h | h | h | h) <;> exact ⟨_, h⟩
  · rintro ⟨a, h⟩
    cases a <;> simp [h]

/-! ### Number operators -/

theorem umax_toNat (a b : Word) : (umax a b).toNat = max a.toNat b.toNat := by
  unfold umax
  split
  · simp_all [BitVec.lt_def, max_def]; omega
  · simp_all [BitVec.lt_def]

theorem umin_toNat (a b : Word) : (umin a b).toNat = min a.toNat b.toNat := by
  unfold umin
  split
  · simp_all [BitVec.lt_def, min_def]
  · simp_all [BitVec.lt_def]

theorem satsub_eq (a b : Nat) : satsub a b = a - b := by unfold satsub; split <;> omega

theorem clamp32_toNat (n : Nat) : (clamp32 n).toNat = min n 0xFFFFFFFF := by
  rw [clamp32, BitVec.toNat_ofNat, Nat.mod_eq_of_lt]; omega

/-! ### The configuration's constraints -/

theorem accMin_ne_zero (a : Axis) : Config.params.accMin.get a ≠ 0#32 := by
  have h := Config.given.admissible
  simp only [Params.admissible, Bool.and_eq_true, Axis.all, List.all_cons, decide_eq_true_eq] at h
  obtain ⟨hx, hy, hz, he, -⟩ := h.1.1.1.1.1.1.1.1.1.1.1.1
  have key : ∀ w : Word, 1#32 ≤ w → w ≠ 0#32 := by rintro w hw rfl; revert hw; decide
  cases a <;> exact key _ (by assumption)

theorem vstop_ceilingOk (a : Axis) :
    Params.ceilingOk (Config.params.vstopMin.get a) (Config.params.vstopMax.get a) = true := by
  have h := Config.given.admissible
  simp only [Params.admissible, Bool.and_eq_true, Axis.all, List.all_cons] at h
  obtain ⟨hx, hy, hz, he, -⟩ := h.1.1.1.1.1.1.1.1.1.1.1.2
  cases a <;> assumption

/-- No register but `XTARGET` has the write address of `XTARGET` (00_scope.md R10, 92 D23). -/
theorem writeAddress_ne_xtarget (r : DevReg) (h : r ≠ .xtarget) :
    Config.params.writeFlag ||| Config.params.devreg r
      ≠ Config.params.writeFlag ||| Config.params.devreg .xtarget := by
  have hA := Config.given.admissible
  change Config.params.admissible = true at hA
  simp only [Params.admissible, Bool.and_eq_true] at hA
  have h1 := hA.1.1.1.1.1.1.2
  have h2 := hA.1.1.1.1.1.2
  have hd : Config.params.devreg r ≠ Config.params.devreg .xtarget := by
    intro hc
    simp [Params.allDistinct, DevReg.all] at h2
    cases r <;> simp_all
  have hw : ∀ r, Config.params.writeFlag &&& Config.params.devreg r = 0#8 := by
    intro r
    simp [DevReg.all] at h1
    cases r <;> simp_all
  intro hc
  apply hd
  have a1 := hw r; have a2 := hw .xtarget
  revert a1 a2 hc
  generalize Config.params.writeFlag = w
  generalize Config.params.devreg r = x
  generalize Config.params.devreg .xtarget = y
  intro hc a1 a2
  apply BitVec.eq_of_getLsbD_eq
  intro i hi
  have b1 := congrArg (fun v => v.getLsbD i) hc
  have b2 := congrArg (fun v => v.getLsbD i) a1
  have b3 := congrArg (fun v => v.getLsbD i) a2
  simp at b1 b2 b3
  cases hh : w.getLsbD i <;> simp_all

/-! ### Slots -/

/-- Writing a slot what it holds changes nothing, inside the ring and outside it. -/
theorem slots_set_slot (s : State) (i : Word) : s.slots.set i.toNat (s.slot i) = s.slots := by
  unfold State.slot
  by_cases h : i.toNat < s.slots.length
  · simp [List.getD, h]
  · rw [List.set_eq_of_length_le (by omega)]

/-- A list of slots written at one index is told by what it then holds there. -/
theorem slots_set_getD (l : List Segment) (k : Nat) (g : Segment) :
    l.set k ((l.set k g).getD k Segment.atReset) = l.set k g := by
  by_cases h : k < l.length
  · simp [List.getD, h]
  · rw [List.set_eq_of_length_le (by omega), List.set_eq_of_length_le (by omega)]

/-! ### The interrupt -/

theorem interruptTakeable_iff (s : State) : s.interruptTakeable = true ↔ takeable s := by
  simp [State.interruptTakeable, State.faulted, takeable, and_assoc]

theorem interruptStep_not (K : Params) (s : State) (h : ¬ takeable s) : interruptStep K s = s := by
  have : s.interruptTakeable = false := by
    rw [← Bool.not_eq_true, interruptTakeable_iff]; exact h
  simp [interruptStep, this]

theorem interruptStep_taken (K : Params) (s : State) (h : takeable s) :
    interruptStep K s = settle s (onTimerCompare K s) := by
  simp [interruptStep, (interruptTakeable_iff s).2 h]

theorem enterInterrupt_handlerState (s : State) :
    (enterInterrupt s).handlerState = s.handlerState := rfl

/-- The handler's three states (10_state.md R26). -/
theorem handlerState_cases (s : State) :
    (s.countdown ≠ 0#32 ∧ s.handlerState = .waiting)
    ∨ (s.countdown = 0#32 ∧ (s.ringEmpty = true ∨ (s.slot s.tail).ready = false)
      ∧ s.handlerState = .idle)
    ∨ (s.countdown = 0#32 ∧ s.ringEmpty = false ∧ (s.slot s.tail).ready = true
      ∧ s.handlerState = .dispatching) := by
  unfold State.handlerState
  by_cases hc : s.countdown = 0#32
  · cases he : s.ringEmpty <;> cases hr : (s.slot s.tail).ready <;> simp [hc]
  · simp [hc]

/-- A handler step in state Waiting. -/
theorem interruptStep_waiting (K : Params) (s : State) (h : takeable s) (hc : s.countdown ≠ 0#32) :
    interruptStep K s = { s with
      tmr := { s.tmr with
        pending := false, ocr := (umin s.countdown Config.chunkMax).truncate 16 }
      countdown := s.countdown - umin s.countdown Config.chunkMax
      trace := s.trace ++ [.timerSet ((umin s.countdown Config.chunkMax).truncate 16)] } := by
  have hs : s.handlerState = .waiting := by
    rcases handlerState_cases s with h | h | h
    · exact h.2
    · exact absurd h.1 hc
    · exact absurd h.1 hc
  rw [interruptStep_taken K s h]
  simp only [onTimerCompare, handlerBody, enterInterrupt_handlerState, hs]
  simp [bind, Except.bind, settle, leaveInterrupt, rearm, emit, enterInterrupt, h.2.2.2.2.1]

/-- A handler step in state Idle. -/
theorem interruptStep_idle (K : Params) (s : State) (h : takeable s) (hs : s.handlerState = .idle) :
    interruptStep K s
      = { s with tmr := { s.tmr with pending := false }, countdown := K.pollTicks } := by
  rw [interruptStep_taken K s h]
  simp only [onTimerCompare, handlerBody, enterInterrupt_handlerState, hs]
  simp [bind, Except.bind, settle, leaveInterrupt, enterInterrupt, h.2.2.2.2.1]

/-- A handler step in state Dispatching while HOME or ENDSTOP runs. -/
theorem interruptStep_contention (K : Params) (s : State) (h : takeable s)
    (hs : s.handlerState = .dispatching) (hb : s.busy = true) :
    interruptStep K s = raiseFault .busContention s := by
  rw [interruptStep_taken K s h]
  simp only [onTimerCompare, handlerBody, enterInterrupt_handlerState, hs, dispatchTail]
  rw [if_pos (show (enterInterrupt s).busy = true from hb)]
  rfl

/-- A handler step in state Dispatching: everything it writes. -/
theorem interruptStep_dispatch (K : Params) (s : State) (h : takeable s)
    (hs : s.handlerState = .dispatching) (hb : s.busy = false) :
    ∃ evs : List Event, evs.map Event.sent = dispatchSent K (s.slot s.tail)
      ∧ interruptStep K s = { s with
        tmr := { s.tmr with pending := false }
        countdown := (s.slot s.tail).duration
        slots := s.slots.set s.tail.toNat { s.slot s.tail with ready := false }
        tail := ringNext K s.tail
        full := false
        cs := csAfter (dispatchWrites (s.slot s.tail)) s.cs
        devLatch := latchAfter K (dispatchWrites (s.slot s.tail)) s.devLatch
        fresh := s.fresh + evs.length
        trace := s.trace ++ evs } := by
  obtain ⟨evs, hm, hw⟩ := writeAll_spec K (dispatchWrites (s.slot s.tail)) (enterInterrupt s)
  have hl : (dispatchWrites (s.slot s.tail)).length = evs.length := by
    simpa using (congrArg List.length hm).symm
  have he : s.ringEmpty = false := by
    rcases handlerState_cases s with h | h | h
    · simp [h.2] at hs
    · simp [h.2.2] at hs
    · exact h.2.1
  refine ⟨evs, ?_, ?_⟩
  · rw [hm]
    cases hz : (s.slot s.tail).zflag <;>
      simp [dispatchWrites, dispatchSent, profileAxes, targetAxes, hz, cruiseWrites, endpointWrites]
  · rw [interruptStep_taken K s h]
    simp only [onTimerCompare, handlerBody, enterInterrupt_handlerState, hs, dispatchTail]
    rw [if_neg (show ¬ (enterInterrupt s).busy = true from fun hn => by
      rw [show (enterInterrupt s).busy = s.busy from rfl, hb] at hn; cases hn)]
    have hd : ∀ t : State, t.ringEmpty = false →
        rbDiscard K t = .ok { t with tail := ringNext K t.tail, full := false } := by
      intro t ht
      simp [rbDiscard, ht]
    simp only [show (enterInterrupt s).tail = s.tail from rfl,
      show (enterInterrupt s).slot s.tail = s.slot s.tail from rfl, hw, ← hl]
    rw [hd (writeSlot _ _ _) ?_]
    · simp [bind, Except.bind, settle, leaveInterrupt, enterInterrupt, writeSlot, h.2.2.2.2.1]
    · exact he

end Sys2Proof.Machine
end

