-- ==== Sys2Proof/Laws/Cases.lean ====
section
/-! SUPPORT. Everything each operation and each agent's step can do, once per operation: its effect, the
fault it records, or nothing where a fault is recorded already. -/

namespace Sys2Proof.Machine

/-- The step recorded a fault and did nothing else, or the block was faulted and nothing happened. -/
def stoppedBy (cs : List FaultCode) (s t : State) : Prop :=
  (s.faults ≠ [] ∧ t = s) ∨ (s.faults = [] ∧ ∃ c ∈ cs, t = raiseFault c s)

/-- The faults of command issue, `early` for INIT (30_encoding.md R104). -/
def issueFaults (early : Bool) : List FaultCode := if early then [.busy] else [.busy, .notInitialised]

/-- A host command either stops or, in a state that passes the checks, does what its body does. -/
theorem hostCommand_inv (early : Bool) (body : State → Except FaultCode State) (s : State) :
    stoppedBy (issueFaults early) s (hostCommand early body s)
    ∨ (s.faults = [] ∧ s.fgOp = none ∧ hostCommand early body s = settle s (body s)) := by
  rcases hostCommand_cases early body s with ⟨h, e⟩ | ⟨h, ho, _, t, hb, e⟩ | ⟨h, ho, _, c, hb, e⟩
    | ⟨h, c, hc, e⟩
  · exact .inl (.inl ⟨h, e⟩)
  · exact .inr ⟨h, ho, by rw [e, hb]; rfl⟩
  · exact .inr ⟨h, ho, by rw [e, hb]; rfl⟩
  · refine .inl (.inr ⟨h, c, ?_, e⟩)
    rcases hc with rfl | ⟨rfl, rfl⟩
    · cases early <;> simp [issueFaults]
    · simp [issueFaults]

theorem unitStep_inv (body : State → Except FaultCode State) (s : State) :
    (s.faults ≠ [] ∧ unitStep body s = s)
    ∨ (s.faults = [] ∧ unitStep body s = settle s (body s)) := by
  by_cases h : s.faults = []
  · exact .inr ⟨h, unitStep_running body h⟩
  · exact .inl ⟨h, unitStep_faulted body s h⟩

/-! ### Host commands -/

theorem initCommand_inv (K : Params) (s : State) :
    stoppedBy (.reinit :: issueFaults true) s (initCommand K s)
    ∨ (s.faults = [] ∧ s.initDone = false ∧ ∃ evs : List Event, initCommand K s = { s with
      cs := csAfter (initWrites K) s.cs
      devLatch := latchAfter K (initWrites K) s.devLatch
      fresh := s.fresh + 32
      tmr := { s.tmr with
        ctc := true, prescaler := some K.prescaler, ocr := K.ocrInit, tie := true }
      initDone := true
      trace := s.trace ++ evs ++ [.timerSet K.ocrInit] }) := by
  rcases hostCommand_inv true (initBody K) s with h | ⟨hf, _, h⟩
  · refine .inl (h.imp_right ?_)
    rintro ⟨hf, c, hc, e⟩
    exact ⟨hf, c, List.mem_cons_of_mem _ hc, e⟩
  · cases hi : s.initDone
    · refine .inr ⟨hf, rfl, ?_⟩
      obtain ⟨evs, _, he⟩ := writeAll_spec K (initWrites K) s
      refine ⟨evs, ?_⟩
      rw [initCommand, h, initBody, if_neg (by simp [hi]), he]
      rfl
    · refine .inl (.inr ⟨hf, .reinit, by simp, ?_⟩)
      rw [initCommand, h, initBody, if_pos hi]
      rfl

theorem calcCommand_inv (K : Params) (s : State) :
    stoppedBy (.badBlock :: issueFaults false) s (calcCommand K s)
    ∨ (s.faults = [] ∧ (s.full = true ∨ s.plan = []) ∧ calcCommand K s = { s with prodSlot := none })
    ∨ (s.faults = [] ∧ s.full = false ∧ ∃ (b : Block) (rest : List Block), s.plan = b :: rest
      ∧ calcCommand K s = { s with
        slots := s.slots.set s.head.toNat (buildSegment K s b)
        pos := posAfter b s
        snap := (buildSegment K s b).snapshot
        head := ringNext K s.head
        full := ringNext K s.head == s.tail
        prodSlot := none
        plan := rest
        trace := s.trace ++ [.planDiscard] }) := by
  rcases hostCommand_inv false (calcBody K) s with h | ⟨hf, _, h⟩
  · refine .inl (h.imp_right ?_)
    rintro ⟨hf, c, hc, e⟩
    exact ⟨hf, c, List.mem_cons_of_mem _ hc, e⟩
  · by_cases hn : s.full = true ∨ s.plan = []
    · exact .inr (.inl ⟨hf, hn, by rw [calcCommand, h, calcBody_noop K s hn]; rfl⟩)
    · simp only [not_or, Bool.not_eq_true] at hn
      obtain ⟨b, rest, hp⟩ := List.exists_cons_of_ne_nil hn.2
      by_cases hb : Block.moves b = true ∧ b.eventCount = 0#32
      · refine .inl (.inr ⟨hf, .badBlock, by simp, ?_⟩)
        rw [calcCommand, h, calcBody_bad K s b rest hn.1 hp hb]; rfl
      · refine .inr (.inr ⟨hf, hn.1, b, rest, hp, ?_⟩)
        rw [calcCommand, h, calcBody_good K s b rest hn.1 hp hb]; rfl

theorem homeParamsOf_cases (K : Params) (a : Axis) (f : Word) :
    (∃ p, homeParamsOf K a f = .ok p) ∨ homeParamsOf K a f = .error .homeZeroSpeed := by
  unfold homeParamsOf
  cases K.stallHoming.get a
  · exact .inl ⟨_, rfl⟩
  · by_cases h : K.toVel a f = 0#32
    · right; simp [h]
    · left; simp [h]

theorem homeCommand_inv (K : Params) (a : Axis) (s : State) :
    stoppedBy (.homeZeroSpeed :: issueFaults false) s (homeCommand K a s)
    ∨ (s.faults = [] ∧ s.fgOp = none ∧ ∃ p : HomeParams, homeCommand K a s = { s with
      fgOp := some .home, homeAxis := some a, homeParams := some p, homePhase := firstPhase K a,
      readPend := none }) := by
  rcases hostCommand_inv false (homeBody K a) s with h | ⟨hf, ho, h⟩
  · refine .inl (h.imp_right ?_)
    rintro ⟨hf, c, hc, e⟩
    exact ⟨hf, c, List.mem_cons_of_mem _ hc, e⟩
  · rcases homeParamsOf_cases K a s.arg0 with ⟨p, hp⟩ | hp
    · refine .inr ⟨hf, ho, p, ?_⟩
      rw [homeCommand, h, homeBody, hp]; rfl
    · refine .inl (.inr ⟨hf, .homeZeroSpeed, by simp, ?_⟩)
      rw [homeCommand, h, homeBody, hp]; rfl

theorem setposCommand_inv (a : Axis) (s : State) :
    stoppedBy (issueFaults false) s (setposCommand a s)
    ∨ (s.faults = [] ∧ setposCommand a s = { s with pos := s.pos.set a s.arg0 }) := by
  refine (hostCommand_inv false _ s).imp_right ?_
  rintro ⟨hf, _, h⟩
  exact ⟨hf, h⟩

theorem getposCommand_inv (a : Axis) (s : State) :
    stoppedBy (issueFaults false) s (getposCommand a s)
    ∨ (s.faults = [] ∧ getposCommand a s = { s with result := s.pos.get a }) := by
  refine (hostCommand_inv false _ s).imp_right ?_
  rintro ⟨hf, _, h⟩
  exact ⟨hf, h⟩

theorem rbCountCommand_inv (K : Params) (s : State) :
    stoppedBy (issueFaults false) s (rbCountCommand K s)
    ∨ (s.faults = []
      ∧ rbCountCommand K s = { s with result := ringCount K s.head s.tail s.full }) := by
  refine (hostCommand_inv false _ s).imp_right ?_
  rintro ⟨hf, _, h⟩
  exact ⟨hf, h⟩

theorem endstopCommand_inv (a : Axis) (s : State) :
    stoppedBy (issueFaults false) s (endstopCommand a s)
    ∨ (s.faults = [] ∧ s.fgOp = none ∧ endstopCommand a s = { s with
      fgOp := some .endstop, endCall := some ⟨a, s.arg0⟩, readPend := none }) := by
  refine (hostCommand_inv false _ s).imp_right ?_
  rintro ⟨hf, ho, h⟩
  exact ⟨hf, ho, h⟩

/-! ### Operations issued by themselves -/

theorem busWriteOp_inv (K : Params) (a : Axis) (r : RegAddr) (v : Word) (s : State) :
    (s.faults ≠ [] ∧ busWriteOp K a r v s = s)
    ∨ (s.faults = [] ∧ busWriteOp K a r v s = { s with
      cs := s.cs.set a false
      devLatch := s.devLatch.set a (some (writeAddress K r))
      fresh := s.fresh + 1
      trace := s.trace ++ [frameOf K a (writeAddress K r) v s]
      ret := .status (frameStatus K a s) }) := by
  refine (unitStep_inv _ s).imp_right ?_
  rintro ⟨hf, h⟩
  refine ⟨hf, h.trans ?_⟩
  simp only [settle, busWrite, busXfer_eq]

theorem busReadFirst_eq (K : Params) (a : Axis) (r : RegAddr) (s : State) :
    busReadFirst K a r s = { s with
      cs := s.cs.set a false
      devLatch := s.devLatch.set a (some (readAddress r))
      fresh := s.fresh + 1
      trace := s.trace ++ [frameOf K a (readAddress r) 0#32 s]
      readPend := some ⟨a, r⟩ } := by
  simp only [busReadFirst, busXfer_eq]

theorem busReadSecond_eq (K : Params) (a : Axis) (r : RegAddr) (s : State) :
    busReadSecond K a r s = { s with
      cs := s.cs.set a false
      devLatch := s.devLatch.set a (some (readAddress r))
      fresh := s.fresh + 1
      trace := s.trace ++ [frameOf K a (readAddress r) 0#32 s]
      readPend := none } := by
  simp only [busReadSecond, busXfer_eq]

theorem busReadOp_inv (K : Params) (a : Axis) (r : RegAddr) (s : State) :
    (s.faults ≠ [] ∧ busReadOp K a r s = s)
    ∨ (s.faults = [] ∧ busReadOp K a r s = busReadFirst K a r s) :=
  unitStep_inv _ s

theorem rbTryEnqueueOp_inv (s : State) :
    (s.faults ≠ [] ∧ rbTryEnqueueOp s = s)
    ∨ (s.faults = [] ∧ s.full = true ∧ rbTryEnqueueOp s = { s with ret := .slot none })
    ∨ (s.faults = [] ∧ s.full = false
      ∧ rbTryEnqueueOp s = { s with prodSlot := some s.head, ret := .slot (some s.head) }) := by
  refine (unitStep_inv _ s).imp_right ?_
  rintro ⟨hf, h⟩
  cases hfull : s.full
  · refine .inr ⟨hf, rfl, h.trans ?_⟩
    simp [rbTryEnqueue_eq, hfull, tryEnqueueResult, bind, Except.bind, settle]
  · refine .inl ⟨hf, rfl, h.trans ?_⟩
    simp [rbTryEnqueue_eq, hfull, tryEnqueueResult, bind, Except.bind, settle]

theorem rbCommitOp_inv (K : Params) (s : State) :
    stoppedBy [.rbOverflow] s (rbCommitOp K s)
    ∨ (s.faults = [] ∧ s.full = false ∧ s.prodSlot = some s.head ∧ rbCommitOp K s = { s with
      head := ringNext K s.head, full := ringNext K s.head == s.tail, prodSlot := none }) := by
  rcases unitStep_inv (rbCommit K) s with ⟨hf, h⟩ | ⟨hf, h⟩
  · exact .inl (.inl ⟨hf, h⟩)
  · rcases rbCommit_cases K s with ⟨h1, h2, e⟩ | ⟨_, e⟩
    · exact .inr ⟨hf, h1, h2, by rw [rbCommitOp, h, e]; rfl⟩
    · exact .inl (.inr ⟨hf, .rbOverflow, by simp, by rw [rbCommitOp, h, e]; rfl⟩)

theorem rbPeekReadyOp_inv (s : State) :
    (s.faults ≠ [] ∧ rbPeekReadyOp s = s)
    ∨ (s.faults = [] ∧ rbPeekReadyOp s = { s with ret := .slot (rbPeekReady s) }) :=
  unitStep_inv _ s

theorem rbDiscardOp_inv (K : Params) (s : State) :
    stoppedBy [.rbUnderflow] s (rbDiscardOp K s)
    ∨ (s.faults = [] ∧ s.ringEmpty = false
      ∧ rbDiscardOp K s = { s with tail := ringNext K s.tail, full := false }) := by
  rcases unitStep_inv (rbDiscard K) s with ⟨hf, h⟩ | ⟨hf, h⟩
  · exact .inl (.inl ⟨hf, h⟩)
  · rcases rbDiscard_cases K s with ⟨_, e⟩ | ⟨h1, e⟩
    · exact .inl (.inr ⟨hf, .rbUnderflow, by simp, by rw [rbDiscardOp, h, e]; rfl⟩)
    · exact .inr ⟨hf, h1, by rw [rbDiscardOp, h, e]; rfl⟩

theorem csEnterOp_inv (s : State) :
    (s.faults ≠ [] ∧ csEnterOp s = s)
    ∨ (s.faults = [] ∧ csEnterOp s = { s with csDepth := s.csDepth + 1 }) :=
  unitStep_inv _ s

theorem csExitOp_inv (s : State) :
    stoppedBy [.csUnbalanced] s (csExitOp s)
    ∨ (s.faults = [] ∧ s.csDepth ≠ 0 ∧ csExitOp s = { s with csDepth := s.csDepth - 1 }) := by
  rcases unitStep_inv csClose s with ⟨hf, h⟩ | ⟨hf, h⟩
  · exact .inl (.inl ⟨hf, h⟩)
  · by_cases hd : s.csDepth = 0
    · exact .inl (.inr ⟨hf, .csUnbalanced, by simp, by rw [csExitOp, h, csClose, if_pos hd]; rfl⟩)
    · exact .inr ⟨hf, hd, by rw [csExitOp, h, csClose, if_neg hd]; rfl⟩

theorem idleYieldOp_inv (s : State) :
    (s.faults ≠ [] ∧ idleYieldOp s = s)
    ∨ (s.faults = [] ∧ idleYieldOp s = { s with trace := s.trace ++ [.yield] }) :=
  unitStep_inv _ s

theorem planGetOp_inv (s : State) :
    (s.faults ≠ [] ∧ planGetOp s = s)
    ∨ (s.faults = [] ∧ planGetOp s = { s with ret := .block s.plan.head? }) :=
  unitStep_inv _ s

theorem planDiscardOp_inv (s : State) :
    (s.faults ≠ [] ∧ planDiscardOp s = s)
    ∨ (s.faults = [] ∧ planDiscardOp s
      = { s with plan := s.plan.tail, trace := s.trace ++ [.planDiscard] }) :=
  unitStep_inv _ s

/-! ### The interrupt unit -/

theorem interruptStep_inv (K : Params) (s : State) :
    (¬ takeable s ∧ interruptStep K s = s)
    ∨ (takeable s ∧ s.countdown ≠ 0#32 ∧ interruptStep K s = { s with
      tmr := { s.tmr with
        pending := false, ocr := (umin s.countdown Config.chunkMax).truncate 16 }
      countdown := s.countdown - umin s.countdown Config.chunkMax
      trace := s.trace ++ [.timerSet ((umin s.countdown Config.chunkMax).truncate 16)] })
    ∨ (takeable s ∧ s.countdown = 0#32 ∧ interruptStep K s
      = { s with tmr := { s.tmr with pending := false }, countdown := K.pollTicks })
    ∨ (takeable s ∧ s.ringEmpty = false ∧ (s.slot s.tail).ready = true ∧ s.busy = true
      ∧ interruptStep K s = raiseFault .busContention s)
    ∨ (takeable s ∧ s.ringEmpty = false ∧ (s.slot s.tail).ready = true ∧ s.busy = false
      ∧ ∃ evs : List Event, evs.map Event.sent = dispatchSent K (s.slot s.tail)
        ∧ interruptStep K s = { s with
          tmr := { s.tmr with pending := false }
          countdown := (s.slot s.tail).duration
          slots := s.slots.set s.tail.toNat { s.slot s.tail with ready := false }
          tail := ringNext K s.tail
          full := false
          cs := csAfter (dispatchWrites (s.slot s.tail)) s.cs
          devLatch := latchAfter K (dispatchWrites (s.slot s.tail)) s.devLatch
          fresh := s.fresh + evs.length
          trace := s.trace ++ evs }) := by
  by_cases h : takeable s
  · rcases handlerState_cases s with ⟨h1, _⟩ | ⟨h1, _, h3⟩ | ⟨_, h2, h3, h4⟩
    · exact .inr (.inl ⟨h, h1, interruptStep_waiting K s h h1⟩)
    · exact .inr (.inr (.inl ⟨h, h1, interruptStep_idle K s h h3⟩))
    · cases hb : s.busy
      · exact .inr (.inr (.inr (.inr ⟨h, h2, h3, rfl, interruptStep_dispatch K s h h4 hb⟩)))
      · exact .inr (.inr (.inr (.inl ⟨h, h2, h3, rfl, interruptStep_contention K s h h4 hb⟩)))
  · exact .inl ⟨h, interruptStep_not K s h⟩

/-! ### The foreground unit -/

/-- A poll is the first frame of the read, or the second with its two ways on (44_homing.md R220). -/
theorem homePoll_eq (K : Params) (a : Axis) (stopped moving : HomePhase) (s : State) :
    homePoll K a stopped moving s
      = if s.readPend = some ⟨a, K.devreg .rampStat⟩ then
          toPhase (if frameAnswer K a s &&& K.vzeroMask ≠ 0#32 then stopped else moving)
            (busReadSecond K a (K.devreg .rampStat) s)
        else busReadFirst K a (K.devreg .rampStat) s := by
  unfold homePoll
  rcases busReadStep_cases K a (K.devreg .rampStat) s with ⟨h1, h2⟩ | ⟨h1, h2⟩
  · rw [h2, if_pos h1]
  · rw [h2, if_neg h1]

theorem homeSetPos_eq (a : Axis) (v : Word) (s : State) :
    homeSetPos a v s = { s with pos := s.pos.set a v } := rfl

/-- A step of ENDSTOP is the first frame of the read, or the second with the result (45 R257). -/
theorem endstopStep_eq (K : Params) (c : EndCall) (s : State) :
    endstopStep K c s
      = if s.readPend = some ⟨c.axis, K.devreg .rampStat⟩ then
          { busReadSecond K c.axis (K.devreg .rampStat) s with
            result := endstopHit (frameAnswer K c.axis s) c.mask, fgOp := none, endCall := none }
        else busReadFirst K c.axis (K.devreg .rampStat) s := by
  unfold endstopStep
  rcases busReadStep_cases K c.axis (K.devreg .rampStat) s with ⟨h1, h2⟩ | ⟨h1, h2⟩
  · rw [h2, if_pos h1]
  · rw [h2, if_neg h1]

/-- The foreground unit either does nothing or takes the next step of a read issued by itself, of HOME or
of ENDSTOP. -/
theorem foregroundStep_inv (K : Params) (s : State) :
    foregroundStep K s = s
    ∨ (s.faults = [] ∧ s.fgOp = none ∧ ∃ p, s.readPend = some p ∧ foregroundStep K s = finishRead K p s)
    ∨ (s.faults = [] ∧ s.fgOp = some .home ∧ ∃ a p, s.homeAxis = some a ∧ s.homeParams = some p
      ∧ foregroundStep K s = homeStep K a p s)
    ∨ (s.faults = [] ∧ s.fgOp = some .endstop ∧ ∃ c, s.endCall = some c
      ∧ foregroundStep K s = endstopStep K c s) := by
  by_cases hf : s.faults = []
  · have e : foregroundStep K s = foregroundBody K s := by
      simp [foregroundStep, (not_faulted_iff s).2 hf]
    rw [e]
    unfold foregroundBody
    split
    · split
      · exact .inr (.inl ⟨hf, by assumption, _, by assumption, rfl⟩)
      · exact .inl rfl
    · split
      · exact .inr (.inr (.inl ⟨hf, by assumption, _, _, by assumption, by assumption, rfl⟩))
      · exact .inl rfl
    · split
      · exact .inr (.inr (.inr ⟨hf, by assumption, _, by assumption, rfl⟩))
      · exact .inl rfl
    · exact .inl rfl
  · exact .inl (by simp [foregroundStep, (faulted_iff s).2 hf])

end Sys2Proof.Machine
end

