-- ==== Sys2Proof/Laws/PerInstr.lean ====
section
/-! SUPPORT. Per-instruction laws: the fields of every instruction's command word (30_encoding.md R100,
R103). -/

namespace Sys2Proof.Laws

/-- The fields of a word put together from `OPC`, `AX` and `REG` with `RSV = 0`. -/
theorem fields_of_word (c : Byte) (a : BitVec 2) (r : BitVec 7) :
    opcField (c ++ (a ++ (0#15 ++ r))) = c ∧ axField (c ++ (a ++ (0#15 ++ r))) = a
    ∧ rsvField (c ++ (a ++ (0#15 ++ r))) = 0#15 ∧ regField (c ++ (a ++ (0#15 ++ r))) = r := by
  refine ⟨?_, ?_, ?_, ?_⟩ <;>
  · simp only [opcField, axField, rsvField, regField]
    apply BitVec.eq_of_getLsbD_eq
    intro i hi
    rw [BitVec.getLsbD_extractLsb']
    simp only [BitVec.getLsbD_append, hi, decide_true, Bool.true_and]
    split_ifs <;> first | (exfalso; omega) | (congr 1; omega)

end Sys2Proof.Laws

/-- Each field of the command word holds its operand, and an unused field holds 0 (30_encoding.md R100,
R103). -/
def Sys2Proof.Laws.EncodedFields.Statement (i : Sys2Proof.Instr) : Prop :=
  Sys2Proof.opcField (Sys2Proof.encode i) = i.opcode.code
  ∧ Sys2Proof.axField (Sys2Proof.encode i) = i.axBits
  ∧ Sys2Proof.rsvField (Sys2Proof.encode i) = 0#15
  ∧ Sys2Proof.regField (Sys2Proof.encode i) = i.regBits
  ∧ (i.opcode.usesAxis = false → Sys2Proof.axField (Sys2Proof.encode i) = 0#2)
  ∧ (i.opcode.usesReg = false → Sys2Proof.regField (Sys2Proof.encode i) = 0#7)

/-- What is left for an instruction: an unused field's operand bits are 0. -/
theorem Sys2Proof.Laws.encodedFields_of_unused (i : Sys2Proof.Instr)
    (ha : i.opcode.usesAxis = false → i.axBits = 0#2)
    (hr : i.opcode.usesReg = false → i.regBits = 0#7) :
    Sys2Proof.Laws.EncodedFields.Statement i := by
  obtain ⟨h1, h2, h3, h4⟩ :=
    Sys2Proof.Laws.fields_of_word i.opcode.code i.axBits i.regBits
  exact ⟨h1, h2, h3, h4, fun h => h2.trans (ha h), fun h => h4.trans (hr h)⟩

theorem Sys2Proof.Laws.EncodedFields.init :
    Sys2Proof.Laws.EncodedFields.Statement .init :=
  Sys2Proof.Laws.encodedFields_of_unused _ (fun _ => rfl) (fun _ => rfl)

theorem Sys2Proof.Laws.EncodedFields.calculate :
    Sys2Proof.Laws.EncodedFields.Statement .calculate :=
  Sys2Proof.Laws.encodedFields_of_unused _ (fun _ => rfl) (fun _ => rfl)

theorem Sys2Proof.Laws.EncodedFields.home (ax : Sys2Proof.Axis) :
    Sys2Proof.Laws.EncodedFields.Statement (.home ax) :=
  Sys2Proof.Laws.encodedFields_of_unused _ (fun h => nomatch h) (fun _ => rfl)

theorem Sys2Proof.Laws.EncodedFields.setpos (ax : Sys2Proof.Axis) :
    Sys2Proof.Laws.EncodedFields.Statement (.setpos ax) :=
  Sys2Proof.Laws.encodedFields_of_unused _ (fun h => nomatch h) (fun _ => rfl)

theorem Sys2Proof.Laws.EncodedFields.getpos (ax : Sys2Proof.Axis) :
    Sys2Proof.Laws.EncodedFields.Statement (.getpos ax) :=
  Sys2Proof.Laws.encodedFields_of_unused _ (fun h => nomatch h) (fun _ => rfl)

theorem Sys2Proof.Laws.EncodedFields.rbCount :
    Sys2Proof.Laws.EncodedFields.Statement .rbCount :=
  Sys2Proof.Laws.encodedFields_of_unused _ (fun _ => rfl) (fun _ => rfl)

theorem Sys2Proof.Laws.EncodedFields.endstop (ax : Sys2Proof.Axis) :
    Sys2Proof.Laws.EncodedFields.Statement (.endstop ax) :=
  Sys2Proof.Laws.encodedFields_of_unused _ (fun h => nomatch h) (fun _ => rfl)

theorem Sys2Proof.Laws.EncodedFields.busWrite (ax : Sys2Proof.Axis) (r : Sys2Proof.RegAddr) (v : Sys2Proof.Word) :
    Sys2Proof.Laws.EncodedFields.Statement (.busWrite ax r v) :=
  Sys2Proof.Laws.encodedFields_of_unused _ (fun h => nomatch h) (fun h => nomatch h)

theorem Sys2Proof.Laws.EncodedFields.busRead (ax : Sys2Proof.Axis) (r : Sys2Proof.RegAddr) :
    Sys2Proof.Laws.EncodedFields.Statement (.busRead ax r) :=
  Sys2Proof.Laws.encodedFields_of_unused _ (fun h => nomatch h) (fun h => nomatch h)

theorem Sys2Proof.Laws.EncodedFields.rbTryEnqueue :
    Sys2Proof.Laws.EncodedFields.Statement .rbTryEnqueue :=
  Sys2Proof.Laws.encodedFields_of_unused _ (fun _ => rfl) (fun _ => rfl)

theorem Sys2Proof.Laws.EncodedFields.rbCommit :
    Sys2Proof.Laws.EncodedFields.Statement .rbCommit :=
  Sys2Proof.Laws.encodedFields_of_unused _ (fun _ => rfl) (fun _ => rfl)

theorem Sys2Proof.Laws.EncodedFields.rbPeekReady :
    Sys2Proof.Laws.EncodedFields.Statement .rbPeekReady :=
  Sys2Proof.Laws.encodedFields_of_unused _ (fun _ => rfl) (fun _ => rfl)

theorem Sys2Proof.Laws.EncodedFields.rbDiscard :
    Sys2Proof.Laws.EncodedFields.Statement .rbDiscard :=
  Sys2Proof.Laws.encodedFields_of_unused _ (fun _ => rfl) (fun _ => rfl)

theorem Sys2Proof.Laws.EncodedFields.csEnter :
    Sys2Proof.Laws.EncodedFields.Statement .csEnter :=
  Sys2Proof.Laws.encodedFields_of_unused _ (fun _ => rfl) (fun _ => rfl)

theorem Sys2Proof.Laws.EncodedFields.csExit :
    Sys2Proof.Laws.EncodedFields.Statement .csExit :=
  Sys2Proof.Laws.encodedFields_of_unused _ (fun _ => rfl) (fun _ => rfl)

theorem Sys2Proof.Laws.EncodedFields.idleYield :
    Sys2Proof.Laws.EncodedFields.Statement .idleYield :=
  Sys2Proof.Laws.encodedFields_of_unused _ (fun _ => rfl) (fun _ => rfl)

theorem Sys2Proof.Laws.EncodedFields.timerCompare :
    Sys2Proof.Laws.EncodedFields.Statement .timerCompare :=
  Sys2Proof.Laws.encodedFields_of_unused _ (fun _ => rfl) (fun _ => rfl)

theorem Sys2Proof.Laws.EncodedFields.planGet :
    Sys2Proof.Laws.EncodedFields.Statement .planGet :=
  Sys2Proof.Laws.encodedFields_of_unused _ (fun _ => rfl) (fun _ => rfl)

theorem Sys2Proof.Laws.EncodedFields.planDiscard :
    Sys2Proof.Laws.EncodedFields.Statement .planDiscard :=
  Sys2Proof.Laws.encodedFields_of_unused _ (fun _ => rfl) (fun _ => rfl)
end

