-- ==== Sys2Proof/Tests/Slice0.lean ====
section
/-! SUPPORT. Tests on one step each: words written out from 30_encoding.md R100 and R103, vectors of
95_test_vectors.md under its example configuration K0, and for every obligation with hypotheses a state and
operands that meet them. -/

namespace Sys2Proof.Tests

open Sys2Proof Sys2Proof.Machine

/-! ### Well-formedness: a register address needs 7 bits (30_encoding.md R100) -/

theorem test_wf_write_eight_bits : (Instr.busWrite .x 0x80#8 0#32).wellFormed = false := by decide

theorem test_wf_read_eight_bits : (Instr.busRead .z 0xFF#8).wellFormed = false := by decide

theorem test_wf_seven_bits :
    (Instr.busWrite .x 0x7F#8 0#32).wellFormed = true ∧ (Instr.busRead .z 0x7F#8).wellFormed = true := by
  decide

/-! ### Decoding: `OPC`, `AX`, `RSV`, `REG` written out bit by bit (30_encoding.md R100, R103) -/

theorem test_decode_host :
    decode 0b00000001_00_000000000000000_0000000#32 0#32 = .ok .init
    ∧ decode 0b00000010_00_000000000000000_0000000#32 0#32 = .ok .calculate
    ∧ decode 0b00000011_01_000000000000000_0000000#32 0#32 = .ok (.home .y)
    ∧ decode 0b00000100_10_000000000000000_0000000#32 0#32 = .ok (.setpos .z)
    ∧ decode 0b00000101_11_000000000000000_0000000#32 0#32 = .ok (.getpos .e)
    ∧ decode 0b00000110_00_000000000000000_0000000#32 0#32 = .ok .rbCount
    ∧ decode 0b00000111_00_000000000000000_0000000#32 0#32 = .ok (.endstop .x) := by decide

theorem test_decode_bus :
    decode 0b00010000_01_000000000000000_1000001#32 7#32 = .ok (.busWrite .y 0x41#8 7#32)
    ∧ decode 0b00010001_10_000000000000000_0110101#32 7#32 = .ok (.busRead .z 0x35#8) := by decide

theorem test_decode_ring :
    decode 0b00100000_00_000000000000000_0000000#32 0#32 = .ok .rbTryEnqueue
    ∧ decode 0b00100001_00_000000000000000_0000000#32 0#32 = .ok .rbCommit
    ∧ decode 0b00100010_00_000000000000000_0000000#32 0#32 = .ok .rbPeekReady
    ∧ decode 0b00100011_00_000000000000000_0000000#32 0#32 = .ok .rbDiscard := by decide

theorem test_decode_rest :
    decode 0b00110000_00_000000000000000_0000000#32 0#32 = .ok .csEnter
    ∧ decode 0b00110001_00_000000000000000_0000000#32 0#32 = .ok .csExit
    ∧ decode 0b00110010_00_000000000000000_0000000#32 0#32 = .ok .idleYield
    ∧ decode 0b01000000_00_000000000000000_0000000#32 0#32 = .ok .timerCompare
    ∧ decode 0b01010000_00_000000000000000_0000000#32 0#32 = .ok .planGet
    ∧ decode 0b01010001_00_000000000000000_0000000#32 0#32 = .ok .planDiscard := by decide

/-- ENC-10 to ENC-15. -/
theorem test_decode_refuses :
    decode 0x02400000#32 0#32 = .error .axisNotZero ∧ decode 0x01000001#32 0#32 = .error .regNotZero
    ∧ decode 0x01000080#32 0#32 = .error .reservedNotZero
    ∧ decode 0x03200000#32 0#32 = .error .reservedNotZero
    ∧ decode 0x08000000#32 0#32 = .error .unknownOpcode
    ∧ decode 0xFF000000#32 0#32 = .error .unknownOpcode := by decide

/-! ### Vectors of 95_test_vectors.md under K0 -/

/-- After reset, under K0. -/
def k0Reset : State := State.resetWith Params.k0

/-- After INIT (95, "Unless a vector says otherwise"). -/
def k0Init : State := initCommand Params.k0 k0Reset

/-- A frame of the vectors' notation. -/
def fr (a : Axis) (ab : Byte) (v : Word) : Sent := .frame a ab v

/-- The block B1600. -/
def b1600 : Block where
  steps := ⟨1600#32, 0#32, 0#32, 0#32⟩
  dirBits := 0#8
  eventCount := 1600#32
  initialRate := 0#32
  nominalRate := 4000#32
  finalRate := 0#32
  accel := 1000#32
  accelUntil := 800#32
  decelAfter := 800#32

/-- The end of CALC-1. -/
def k0Calc : State := calcCommand Params.k0 { k0Init with plan := [b1600] }

/-- INIT-1. -/
theorem test_init :
    (k0Init.trace.map Event.sent).take 9
      = [fr .x 0x90#8 0#32, fr .x 0xA0#8 0#32, fr .x 0xA5#8 0#32, fr .x 0xA6#8 0xFFFF#32,
        fr .x 0xA7#8 0x7FFE00#32, fr .x 0xEC#8 0#32, fr .x 0x80#8 0#32, fr .x 0xB4#8 0#32,
        fr .y 0x90#8 0#32]
    ∧ k0Init.trace.length = 33 ∧ k0Init.trace.getLast? = some (.timerSet 1000#16)
    ∧ k0Init.status = 0x00000004#32 ∧ k0Init.devLatch = .const (some 0xB4#8)
    ∧ k0Init.tmr.prescaler = some 8 := by decide +kernel

/-- INIT-2. -/
theorem test_reinit :
    (initCommand Params.k0 k0Init).status = 0x00000206#32
    ∧ (initCommand Params.k0 k0Init).trace = k0Init.trace := by decide +kernel

/-- CALC-1. -/
theorem test_calc_first :
    (k0Calc.slot 0#32).acc = ⟨7#32, 0#32, 0#32, 0#32⟩ ∧ (k0Calc.slot 0#32).vmax.x = 4000#32
    ∧ (k0Calc.slot 0#32).vstop = ⟨10#32, 0#32, 0#32, 0#32⟩
    ∧ (k0Calc.slot 0#32).target.x = 1600#32 ∧ (k0Calc.slot 0#32).duration = 8000000#32
    ∧ (k0Calc.slot 0#32).zflag = false ∧ (k0Calc.slot 0#32).ready = true
    ∧ k0Calc.head = 1#32 ∧ k0Calc.pos.x = 1600#32 ∧ k0Calc.plan = [] := by decide +kernel

/-- CALC-2: a ratio below one and a negative direction, from the end of CALC-1. -/
theorem test_calc_negative :
    let b : Block := { b1600 with
      steps := ⟨800#32, 400#32, 0#32, 0#32⟩, dirBits := 0b0010#8, eventCount := 800#32
      accel := 2000#32, initialRate := 100#32, nominalRate := 3000#32, finalRate := 200#32
      accelUntil := 100#32, decelAfter := 700#32 }
    let t := calcCommand Params.k0 { k0Calc with plan := [b] }
    (t.slot 1#32).acc = ⟨15#32, 7#32, 0#32, 0#32⟩
    ∧ (t.slot 1#32).vstart = ⟨100#32, 50#32, 0#32, 0#32⟩
    ∧ (t.slot 1#32).vmax = ⟨3000#32, 1500#32, 0#32, 0#32⟩
    ∧ (t.slot 1#32).vstop = ⟨200#32, 100#32, 0#32, 0#32⟩
    ∧ t.snap.target = ⟨2400#32, 0xFFFFFE70#32, 0#32, 0#32⟩
    ∧ (t.slot 1#32).duration = 3050000#32 ∧ t.head = 2#32 := by decide +kernel

/-- CALC-3: the floors and the clamp of the initial speed. -/
theorem test_profile_floors :
    axisProfile Params.k0 .atReset { b1600 with
      steps := ⟨1#32, 0#32, 0#32, 0#32⟩, eventCount := 1000#32, accel := 100#32
      initialRate := 5000#32, nominalRate := 2000#32, finalRate := 9000#32 } .x
      = ⟨1#32, 1#32, 1#32, 10#32⟩ := by decide +kernel

/-- CALC-10 and CALC-11: the clamp, a zero divisor, rounding. -/
theorem test_duration :
    duration Params.k0 { b1600 with nominalRate := 4000000000#32, accel := 1#32 } = 0xFFFFFFFF#32
    ∧ duration Params.k0 { b1600 with accel := 0#32, accelUntil := 0#32 } = 200000#32
    ∧ duration Params.k0 { b1600 with
      nominalRate := 7#32, accel := 3#32, accelUntil := 0#32, decelAfter := 1#32 }
      = 4809523#32 := by decide +kernel

/-- HOME-2: the parameters at issue. -/
theorem test_home_params :
    let t := homeCommand Params.k0 .y { k0Init with arg0 := 1000#32 }
    t.homeParams = some ⟨1000#32, 0xFFFFFCE0#32, 1#32, 0x4816#32⟩ ∧ t.homePhase = .stSmoothOff
    ∧ t.status = 0x00000005#32 ∧ t.trace = k0Init.trace := by decide +kernel

/-- HOME-3: speed 0 on a stall-homed axis. -/
theorem test_home_zero_speed :
    (homeCommand Params.k0 .y k0Init).status = 0x00000A06#32
    ∧ (homeCommand Params.k0 .y k0Init).fgOp = none := by decide +kernel

/-- POS-1: the write; ARG0 is -200. -/
theorem test_setpos :
    (setposCommand .y { k0Init with arg0 := 0xFFFFFF38#32 }).pos
      = ⟨0#32, 0xFFFFFF38#32, 0#32, 0#32⟩ := by decide +kernel

/-- POS-2: the read of -2147483648. -/
theorem test_getpos :
    (getposCommand .e { k0Init with pos := ⟨1#32, 2#32, 3#32, 0x80000000#32⟩ }).result
      = 0x80000000#32 := by decide +kernel

/-- RB-4 and RB-2b. -/
theorem test_rb_count :
    (rbCountCommand { Params.k0 with logN := 3 } { k0Init with head := 1#32, tail := 6#32 }).result
      = 3#32
    ∧ (rbCountCommand Params.k0 { k0Init with full := true }).result = 4#32 := by decide +kernel

/-- END-1: the second frame, whose data is 0x401, with masks 1 and 2. -/
theorem test_endstop :
    let K := { Params.k0 with oracle := fun _ _ _ => 0x401#32 }
    let s := fun m : Word =>
      { k0Init with fgOp := some .endstop, endCall := some ⟨.x, m⟩, readPend := some ⟨.x, 0x35#8⟩ }
    (foregroundStep K (s 1#32)).result = 1#32 ∧ (foregroundStep K (s 2#32)).result = 0#32
    ∧ (foregroundStep K (s 1#32)).status = 0x00000004#32 := by decide +kernel

/-- BUS-1, with its wire bytes. -/
theorem test_bus_write :
    ((busWriteOp Params.k0 .x 0x27#8 4000#32 k0Init).trace.getLast?).map Event.sent
      = some (fr .x 0xA7#8 0xFA0#32)
    ∧ (busWriteOp Params.k0 .x 0x27#8 4000#32 k0Init).devLatch.x = some 0xA7#8
    ∧ frameOut 0xA7#8 4000#32 = [0xA7#8, 0x00#8, 0x00#8, 0x0F#8, 0xA0#8] := by decide +kernel

/-- BUS-2: the first frame of a read brings the answer for register 0x2D. -/
theorem test_bus_read :
    let K := { Params.k0 with oracle := fun _ _ r => r.zeroExtend 32 }
    let s := { k0Init with devLatch := .const (some 0xAD#8) }
    (busReadOp K .z 0x35#8 s).trace.getLast? = some (.frame .z 0x35#8 0#32 0#8 0x2D#32)
    ∧ (foregroundStep K (busReadOp K .z 0x35#8 s)).ret = .data 0x35#32 := by decide +kernel

/-- RB-1 and RB-2b. -/
theorem test_rb_try_enqueue :
    (rbTryEnqueueOp k0Init).prodSlot = some 0#32 ∧ (rbTryEnqueueOp k0Init).ret = .slot (some 0#32)
    ∧ (rbTryEnqueueOp { k0Init with full := true }).ret = .slot none := by decide +kernel

/-- RB-2 and RB-7. -/
theorem test_rb_commit :
    (rbCommitOp Params.k0 { k0Init with head := 3#32, prodSlot := some 3#32 }).head = 0#32
    ∧ (rbCommitOp Params.k0 { k0Init with head := 3#32, prodSlot := some 3#32 }).full = true
    ∧ (rbCommitOp Params.k0 { k0Init with head := 2#32 }).faults = [.rbOverflow] := by decide +kernel

/-- RB-2c and RB-6. -/
theorem test_rb_peek_ready :
    (rbPeekReadyOp { k0Init with full := true }).ret = .slot (some 0#32)
    ∧ (rbPeekReadyOp { k0Init with head := 2#32, tail := 2#32 }).ret = .slot none := by decide +kernel

/-- RB-3 and RB-8. -/
theorem test_rb_discard :
    (rbDiscardOp Params.k0 { k0Init with head := 1#32, tail := 1#32, full := true }).tail = 2#32
    ∧ (rbDiscardOp Params.k0 { k0Init with head := 1#32, tail := 1#32, full := true }).full = false
    ∧ (rbDiscardOp Params.k0 { k0Init with head := 2#32, tail := 2#32 }).faults
      = [.rbUnderflow] := by decide +kernel

/-- ISR-7, its first and third step. -/
theorem test_sections :
    (csEnterOp k0Init).csDepth = 1 ∧ (csExitOp { k0Init with csDepth := 1 }).csDepth = 0 := by
  decide +kernel

/-- CS-1. -/
theorem test_cs_unbalanced : (csExitOp k0Init).status = 0x00000B06#32 := by decide +kernel

/-- The hook's event (45_init_and_interfaces.md R260). -/
theorem test_idle_yield : (idleYieldOp k0Init).trace = k0Init.trace ++ [.yield] := by decide +kernel

/-- ISR-1, the first firing. -/
theorem test_timer_waiting :
    let t := interruptStep Params.k0 (timerStep { k0Init with countdown := 70000#32 })
    t.tmr.ocr = 0xFFFF#16 ∧ t.countdown = 4465#32 ∧ t.tmr.pending = false := by decide +kernel

/-- ISR-2: the eighteen frames. -/
theorem test_timer_dispatch :
    let t := interruptStep Params.k0 (timerStep k0Calc)
    ((t.trace.drop k0Calc.trace.length).map Event.sent)
      = [fr .x 0xA7#8 4000#32, fr .x 0xA6#8 7#32, fr .x 0xA8#8 7#32,
        fr .y 0xA7#8 0#32, fr .y 0xA6#8 0#32, fr .y 0xA8#8 0#32,
        fr .e 0xA7#8 0#32, fr .e 0xA6#8 0#32, fr .e 0xA8#8 0#32,
        fr .x 0xA3#8 0#32, fr .x 0xAB#8 10#32, fr .y 0xA3#8 0#32, fr .y 0xAB#8 0#32,
        fr .e 0xA3#8 0#32, fr .e 0xAB#8 0#32,
        fr .x 0xAD#8 0x640#32, fr .y 0xAD#8 0#32, fr .e 0xAD#8 0#32]
    ∧ t.countdown = 8000000#32 ∧ (t.slot 0#32).ready = false ∧ t.tail = 1#32
    ∧ t.devLatch = ⟨some 0xAD#8, some 0xAD#8, some 0xB4#8, some 0xAD#8⟩ := by decide +kernel

/-- PLAN-1. -/
theorem test_planner :
    (planGetOp { k0Init with plan := [b1600, default] }).ret = .block (some b1600)
    ∧ (planDiscardOp { k0Init with plan := [b1600, default] }).plan = [default] := by decide +kernel

/-- HOME Y, 1000 and WAIT_IDLE (30_encoding.md R110, R111; 95 ENC-3). -/
theorem test_host_lines :
    (HostLine.home .y 1000#32).expand = [.hostWrite 0x04 4 1000#32, .hostWrite 0x00 4 0x03400000#32]
    ∧ HostLine.waitIdle.expand = [.hostRead 0x10 4] ∧ HostLine.waitIdle.loops = true := by decide

/-- The write flag is the one top bit (00_scope.md R10, 20_memory.md R71). -/
theorem test_write_flag :
    Params.k0.admissible = true ∧ ({ Params.k0 with writeFlag := 0x00#8 } : Params).admissible = false
    ∧ ({ Params.k0 with writeFlag := 0x82#8 } : Params).admissible = false := by decide +kernel

/-- MEM-2: an illegal access after INIT. -/
theorem test_illegal_access : (hostRead 0x02 4 k0Init).status = 0x00000406#32 := by decide +kernel

/-! ### Witnesses: for every obligation with hypotheses, what meets them -/

/-- After reset, with the timer running and commands admitted. -/
def standby : State :=
  { State.reset with
    initDone := true
    tmr := { Timer.atReset with ctc := true, tie := true, prescaler := some 0 } }

/-- As `standby`, with a compare event pending. -/
def armed : State := { standby with tmr := { standby.tmr with pending := true } }

/-- A segment ready for dispatch. -/
def readySegment (z : Bool) : Segment := { Segment.atReset with ready := true, zflag := z, duration := 5#32 }

/-- As `armed`, with one segment ready in slot 0. -/
def loaded (z : Bool) : State := { armed with slots := [readySegment z], head := 1#32 }

/-- A block that moves no axis. -/
def stillBlock : Block := { b1600 with steps := .const 0#32, eventCount := 0#32 }

/-- A block that moves an axis in zero step events. -/
def badBlock : Block := { b1600 with eventCount := 0#32 }

/-- HOME on `a` in progress in phase `ph`. -/
def inHome (a : Axis) (ph : HomePhase) : State :=
  { standby with
    fgOp := some .home, homeAxis := some a, homeParams := some ⟨500#32, 800#32, 2#32, 0#32⟩, homePhase := ph }

theorem reset_ringWf : ringWf Config.params State.reset :=
  ⟨List.length_replicate, by simpa [State.reset, State.resetWith] using n_pos Config.params,
    by simpa [State.reset, State.resetWith] using n_pos Config.params, fun h => nomatch h⟩

theorem standby_accepts : acceptsCommand standby := ⟨rfl, rfl, rfl⟩

theorem armed_takeable : takeable armed := ⟨rfl, rfl, rfl, rfl, rfl, rfl⟩

theorem reset_faultFree : faultFree State.reset := ⟨rfl, rfl⟩

theorem witness_StepRunsDecodedInstruction :
    (∃ (s : State) (w : Word) (i : Instr) (rest : List Action), s.opPort = none
      ∧ s.agenda = .hostWrite 0x00 4 w :: rest ∧ decode w 0#32 = .ok i ∧ i.opcode.hostIssuable = true)
    ∧ (∃ (s : State) (o : StagedOp) (i : Instr), s.opPort = some o ∧ decode o.word o.data = .ok i)
    ∧ (∃ (s : State) (rest : List Action), s.opPort = none ∧ s.agenda = .interrupt :: rest)
    ∧ (∃ (s : State) (rest : List Action), s.opPort = none ∧ s.agenda = .foreground :: rest)
    ∧ (∃ (s : State) (rest : List Action), s.opPort = none ∧ s.agenda = .timerEvent :: rest)
    ∧ decodeTableWord 32 0x40000000 = some .timerCompare
    ∧ decodeTableWord 32 0x03C00000 = some (.home .e) :=
  ⟨⟨{ State.reset with agenda := [.hostWrite 0x00 4 0x03C00000#32] }, _, .home .e, [], rfl, rfl,
      by decide, rfl⟩,
    ⟨{ State.reset with opPort := some ⟨0x1000007F#32, 7#32⟩ }, _, .busWrite .x 0x7F#8 7#32, rfl,
      by decide⟩,
    ⟨{ State.reset with agenda := [.interrupt] }, [], rfl, rfl⟩,
    ⟨{ State.reset with agenda := [.foreground] }, [], rfl, rfl⟩,
    ⟨{ State.reset with agenda := [.timerEvent] }, [], rfl, rfl⟩, by decide, by decide⟩

theorem witness_DecodeEncodeRoundTrip : (Instr.busWrite .e 0x7F#8 0xFFFFFFFF#32).wellFormed = true := by
  decide

theorem witness_DecodedWordIsItsEncoding :
    decode 0x10C0007F#32 9#32 = .ok (.busWrite .e 0x7F#8 9#32) := by decide

theorem witness_IllegalCommandWordFaults :
    faultFree State.reset ∧ State.reset.fgOp = none
    ∧ opcField 0x08000000#32 ∉ [0x01#8, 0x02#8, 0x03#8, 0x04#8, 0x05#8, 0x06#8, 0x07#8]
    ∧ opcField 0x00000000#32 ∉ [0x01#8, 0x02#8, 0x03#8, 0x04#8, 0x05#8, 0x06#8, 0x07#8]
    ∧ rsvField 0x01000080#32 ≠ 0#15 ∧ rsvField 0x03200000#32 ≠ 0#15 ∧ regField 0x01000001#32 ≠ 0#7
    ∧ opcField 0x02400000#32 ∈ [0x01#8, 0x02#8, 0x06#8] ∧ axField 0x02400000#32 ≠ 0#2 :=
  ⟨reset_faultFree, rfl, by decide, by decide, by decide, by decide, by decide, by decide, by decide⟩

theorem witness_ExternalResetFromAnyState :
    ∃ (s : State) (rest : List Action), s.opPort = none ∧ s.agenda = .reset :: rest ∧ s.fgOp = some .home :=
  ⟨{ inHome .x .seekPoll with agenda := [.reset] }, [], rfl, rfl, rfl⟩

theorem witness_CommandBeforeInitFaults :
    Instr.calculate.opcode.hostIssuable = true ∧ Instr.calculate ≠ .init ∧ faultFree State.reset
    ∧ State.reset.fgOp = none ∧ State.reset.initDone = false :=
  ⟨rfl, by decide, reset_faultFree, rfl, rfl⟩

theorem witness_CommandWhileBusyFaults :
    faultFree (inHome .x .swVmax) ∧ (inHome .x .swVmax).fgOp.isSome = true := ⟨⟨rfl, rfl⟩, rfl⟩

theorem witness_FaultedBlockIsQuiescent :
    ({ standby with faults := [.busy], firstFault := 5#8 } : State).faults ≠ []
    ∧ legalAccess 0x10 4 = true ∧ legalAccess 0x11 4 = false ∧ legalAccess 0x10 3 = false
    ∧ (∃ t, act .foreground { standby with faults := [.busy] } = .next t)
    ∧ standby.faults.length ≤ 1 ∧ (∃ t, act (.hostRead 0x14 4) standby = .next t) :=
  ⟨by decide, by decide, by decide, by decide, ⟨_, rfl⟩, by decide, ⟨_, rfl⟩⟩

theorem witness_RegisterWindow :
    decode 0x07C00000#32 0#32 = .ok (.endstop .e) ∧ (Instr.endstop .e).opcode.hostIssuable = true
    ∧ faultFree standby ∧ ¬ ((4 : Nat) = 4 ∧ (0x11 : Nat) ∈ [0x00, 0x04, 0x08, 0x0C, 0x10])
    ∧ ¬ ((3 : Nat) = 4 ∧ (0x10 : Nat) ∈ [0x00, 0x04, 0x08, 0x0C, 0x10]) :=
  ⟨by decide, rfl, ⟨rfl, rfl⟩, by decide, by decide⟩

theorem witness_InitProgramsEveryChip :
    State.reset.faults = [] ∧ State.reset.fgOp = none ∧ State.reset.initDone = false
    ∧ faultFree State.reset ∧ faultFree standby ∧ standby.fgOp = none ∧ standby.initDone = true :=
  ⟨rfl, rfl, rfl, reset_faultFree, ⟨rfl, rfl⟩, rfl, rfl⟩

theorem witness_PositionCommands : acceptsCommand standby := standby_accepts

theorem witness_SectionsYieldAndPlanner :
    standby.faults = [] ∧ standby.csDepth = 0 ∧ standby.firstFault = 0#8
    ∧ ({ standby with csDepth := 1 } : State).faults = [] ∧ ({ standby with csDepth := 1 } : State).csDepth ≠ 0 :=
  ⟨rfl, rfl, rfl, rfl, by decide⟩

theorem witness_HostLinesIssueTheirCommands : acceptsCommand standby := standby_accepts

theorem witness_BusWriteSendsOneFrame : State.reset.faults = [] := rfl

theorem witness_BusReadTakesTwoFrames : State.reset.faults = [] ∧ State.reset.fgOp = none := ⟨rfl, rfl⟩

theorem witness_InterposedFrameChangesRead :
    ∃ s1 s2 : State, State.reset.faults = [] ∧ State.reset.fgOp = none
      ∧ exec (.busRead .x 0x35#8) State.reset = .next s1 ∧ exec (.busWrite .x 0x27#8 1#32) s1 = .next s2 :=
  ⟨_, _, rfl, rfl, rfl, rfl⟩

theorem witness_TryEnqueueReservesHead :
    standby.faults = [] ∧ standby.full = false ∧ ({ standby with full := true } : State).faults = [] :=
  ⟨rfl, rfl, rfl⟩

theorem witness_CommitAdvancesHead :
    (∃ s : State, s.faults = [] ∧ s.full = false ∧ s.prodSlot = some s.head)
    ∧ (∃ s : State, s.faults = [] ∧ s.full = true ∧ s.firstFault = 0#8)
    ∧ (∃ s : State, s.faults = [] ∧ s.prodSlot ≠ some s.head ∧ s.firstFault = 0#8) :=
  ⟨⟨{ standby with prodSlot := some 0#32 }, rfl, rfl, rfl⟩, ⟨{ standby with full := true }, rfl, rfl, rfl⟩,
    ⟨standby, rfl, nofun, rfl⟩⟩

theorem witness_PeekReadyAnswersTail :
    (∃ s : State, s.faults = [] ∧ s.head = s.tail ∧ s.full = false)
    ∧ (∃ s : State, s.faults = [] ∧ s.head ≠ s.tail) ∧ (∃ s : State, s.faults = [] ∧ s.full = true) :=
  ⟨⟨standby, rfl, rfl, rfl⟩, ⟨{ standby with head := 1#32 }, rfl, by decide⟩,
    ⟨{ standby with full := true }, rfl, rfl⟩⟩

theorem witness_DiscardAdvancesTail :
    (∃ s : State, s.faults = [] ∧ s.head ≠ s.tail) ∧ (∃ s : State, s.faults = [] ∧ s.full = true)
    ∧ (∃ s : State, s.faults = [] ∧ s.head = s.tail ∧ s.full = false ∧ s.firstFault = 0#8) :=
  ⟨⟨{ standby with head := 1#32 }, rfl, by decide⟩, ⟨{ standby with full := true }, rfl, rfl⟩,
    ⟨standby, rfl, rfl, rfl, rfl⟩⟩

theorem witness_CountReportsOccupancy : acceptsCommand standby ∧ ringWf Config.params standby :=
  ⟨standby_accepts, reset_ringWf⟩

theorem full_ringWf : ringWf Config.params { standby with full := true } :=
  ⟨reset_ringWf.1, reset_ringWf.2.1, reset_ringWf.2.2.1, fun _ => rfl⟩

theorem witness_EnqueueFailsExactlyWhenFull :
    ringWf Config.params standby ∧ standby.faults = [] ∧ standby.full = false
    ∧ ∃ s : State, ringWf Config.params s ∧ s.faults = [] ∧ s.full = true :=
  ⟨reset_ringWf, rfl, rfl, _, full_ringWf, rfl, rfl⟩

theorem witness_DiscardAllowsOneEnqueue :
    ∃ s : State, ringWf Config.params s ∧ s.faults = [] ∧ s.full = true :=
  ⟨_, full_ringWf, rfl, rfl⟩

theorem witness_CalcBuildsSegment :
    (∃ s : State, acceptsCommand s ∧ s.full = false ∧ s.plan = [b1600] ∧ b1600.eventCount ≠ 0#32
      ∧ b1600.steps.get .x ≠ 0#32 ∧ b1600.steps.get .y = 0#32)
    ∧ (∃ s : State, acceptsCommand s ∧ s.full = false ∧ s.plan = [stillBlock]
      ∧ ∀ a, stillBlock.steps.get a = 0#32) :=
  ⟨⟨{ standby with plan := [b1600] }, standby_accepts, rfl, rfl, by decide, by decide, by decide⟩,
    ⟨{ standby with plan := [stillBlock] }, standby_accepts, rfl, rfl, by intro a; cases a <;> rfl⟩⟩

theorem witness_DurationRoundingBound :
    1 ≤ Params.k0.corrDen ∧ (duration Params.k0 b1600).toNat < 0xFFFFFFFF
    ∧ (duration Params.k0 { b1600 with accel := 0#32 }).toNat < 0xFFFFFFFF := by decide +kernel

theorem witness_CalcNoOp :
    (∃ s : State, acceptsCommand s ∧ s.full = true) ∧ (∃ s : State, acceptsCommand s ∧ s.plan = []) :=
  ⟨⟨{ standby with full := true }, standby_accepts, rfl⟩, ⟨standby, standby_accepts, rfl⟩⟩

theorem witness_CalcMalformedBlockFaults :
    (∃ s : State, acceptsCommand s ∧ s.firstFault = 0#8 ∧ s.full = false ∧ s.plan = [badBlock]
      ∧ (∃ a, badBlock.steps.get a ≠ 0#32) ∧ badBlock.eventCount = 0#32)
    ∧ (∃ s : State, acceptsCommand s ∧ s.firstFault = 0#8 ∧ s.full = false ∧ s.plan = [stillBlock]
      ∧ ∀ a, stillBlock.steps.get a = 0#32)
    ∧ (∃ s : State, acceptsCommand s ∧ s.firstFault = 0#8 ∧ s.full = false ∧ s.plan = [b1600]
      ∧ b1600.eventCount ≠ 0#32) :=
  ⟨⟨{ standby with plan := [badBlock] }, standby_accepts, rfl, rfl, rfl, ⟨.x, by decide⟩, rfl⟩,
    ⟨{ standby with plan := [stillBlock] }, standby_accepts, rfl, rfl, rfl, by intro a; cases a <;> rfl⟩,
    ⟨{ standby with plan := [b1600] }, standby_accepts, rfl, rfl, rfl, by decide⟩⟩

theorem witness_MovingAxisBounds :
    ∃ s t : State, acceptsCommand s ∧ s.full = false ∧ s.plan = [b1600] ∧ b1600.eventCount ≠ 0#32
      ∧ b1600.steps.get .x ≠ 0#32 ∧ exec .calculate s = .next t :=
  ⟨{ standby with plan := [b1600] }, _, standby_accepts, rfl, rfl, by decide, by decide, rfl⟩

theorem witness_FullShareSpeed : (65535#32 : Word) ≠ 0#32 ∧ (65535#32 : Word).toNat < 65536 := by decide

theorem witness_SetposLeavesCarriedTarget :
    ∃ s : State, acceptsCommand s ∧ s.full = false ∧ ringWf Config.params s ∧ s.plan = [b1600]
      ∧ b1600.steps.get .y = 0#32 ∧ b1600.eventCount ≠ 0#32 :=
  ⟨{ standby with plan := [b1600] }, standby_accepts, rfl, reset_ringWf, rfl, by decide, by decide⟩

theorem witness_WaitingRearmsTimer :
    takeable { armed with countdown := 0x10000#32 } ∧ (0x10000#32 : Word) ≠ 0#32
    ∧ takeable { armed with countdown := 1#32 } ∧ (1#32 : Word) ≠ 0#32 :=
  ⟨armed_takeable, by decide, armed_takeable, by decide⟩

theorem witness_IdlePollsAgain :
    (∃ s : State, takeable s ∧ s.countdown = 0#32 ∧ s.head = s.tail ∧ s.full = false)
    ∧ (∃ s : State, takeable s ∧ s.countdown = 0#32 ∧ s.head ≠ s.tail ∧ (s.slot s.tail).ready = false) :=
  ⟨⟨armed, armed_takeable, rfl, rfl, rfl⟩,
    ⟨{ armed with slots := [Segment.atReset], head := 1#32 }, armed_takeable, rfl, by decide, by decide⟩⟩

theorem one_ne_zero_word : (1#32 : Word) ≠ 0#32 := by decide

theorem witness_DispatchWritesSegment :
    ∃ s s' : State, (takeable s ∧ s.countdown = 0#32 ∧ s.head ≠ s.tail ∧ (s.slot s.tail).ready = true
      ∧ s.fgOp ≠ some .home ∧ s.fgOp ≠ some .endstop ∧ (s.slot s.tail).zflag = false)
    ∧ (takeable s' ∧ s'.countdown = 0#32 ∧ s'.full = true ∧ (s'.slot s'.tail).ready = true
      ∧ s'.fgOp ≠ some .home ∧ s'.fgOp ≠ some .endstop ∧ (s'.slot s'.tail).zflag = true) :=
  ⟨loaded false, { loaded true with head := 0#32, full := true },
    ⟨armed_takeable, rfl, by decide, rfl, nofun, nofun, rfl⟩,
    ⟨armed_takeable, rfl, rfl, rfl, nofun, nofun, rfl⟩⟩

theorem witness_DispatchDuringBusCommandFaults :
    ∀ o ∈ [Opcode.home, Opcode.endstop], ∃ s : State, takeable s ∧ s.firstFault = 0#8
      ∧ s.countdown = 0#32 ∧ s.head ≠ s.tail ∧ (s.slot s.tail).ready = true ∧ s.fgOp = some o :=
  fun o _ =>
    ⟨{ loaded false with fgOp := some o }, armed_takeable, rfl, rfl, one_ne_zero_word, rfl, rfl⟩

theorem witness_InterruptNotTaken : ¬ takeable State.reset := fun h => nomatch h.1

theorem witness_TargetsWrittenLast :
    ∀ z : Bool, ∃ s t : State, takeable s ∧ s.countdown = 0#32 ∧ s.head ≠ s.tail
      ∧ (s.slot s.tail).ready = true ∧ s.fgOp = none ∧ (s.slot s.tail).zflag = z
      ∧ exec .timerCompare s = .next t :=
  fun z => ⟨loaded z, _, armed_takeable, rfl, one_ne_zero_word, rfl, rfl, rfl, rfl⟩

theorem witness_CountdownConsumedInChunks :
    ∃ s : State, s.timerRuns = true ∧ s.tmr.tie = true ∧ s.gie = true ∧ s.csDepth = 0 ∧ s.inIsr = false
      ∧ s.countdown.toNat / 0xFFFF = 1 ∧ s.countdown.toNat % 0xFFFF ≠ 0 :=
  ⟨{ standby with countdown := 0x10000#32 }, rfl, rfl, rfl, rfl, rfl, by decide, by decide⟩

theorem witness_CriticalSectionHoldsInterrupt :
    standby.timerRuns = true ∧ standby.tmr.tie = true ∧ standby.gie = true ∧ standby.csDepth = 0
    ∧ standby.inIsr = false ∧ standby.fgOp = none := ⟨rfl, rfl, rfl, rfl, rfl, rfl⟩

theorem witness_CalcCommutesWithHandler :
    ∃ s : State, acceptsCommand s ∧ takeable s ∧ ringWf Params.k0 s ∧ s.full = false
      ∧ s.handlerState = .dispatching
      ∧ ∀ b, s.plan.head? = some b → Block.moves b = true → b.eventCount ≠ 0#32 :=
  ⟨{ armed with slots := List.replicate 4 (readySegment true), head := 1#32, plan := [b1600] },
    standby_accepts, armed_takeable, by unfold ringWf; decide +kernel, rfl, by decide +kernel,
    by intro b hb _; cases hb; decide⟩

theorem witness_HomeIssue :
    acceptsCommand standby
    ∧ ¬ (Params.k0.stallHoming.get .x = true ∧ Params.k0.toVel .x standby.arg0 = 0#32)
    ∧ Params.k0.stallHoming.get .y = true ∧ Params.k0.toVel .y standby.arg0 = 0#32
    ∧ standby.firstFault = 0#8 :=
  ⟨standby_accepts, by decide, rfl, rfl, rfl⟩

theorem witness_HomePhaseTable :
    (∀ ph, homing (inHome .y ph) .y ⟨500#32, 800#32, 2#32, 0#32⟩ ph)
    ∧ (homeWriteRow Params.k0 .y ⟨500#32, 800#32, 2#32, 0#32⟩ .stThr).isSome = true
    ∧ (homePollRow Params.k0 .y .retPoll).isSome = true :=
  ⟨fun _ => ⟨rfl, rfl, rfl, rfl, rfl⟩, rfl, rfl⟩

/-- K0 with a device whose axis still moves in the draws numbered in the list. -/
def movingAt (l : List Nat) : Params :=
  { Params.k0 with oracle := fun n _ _ => if n ∈ l then 0#32 else 0x400#32 }

theorem witness_HomingRunsToItsEnd :
    (∃ s : State, homing s .x ⟨500#32, 800#32, 2#32, 0#32⟩ .swEnable ∧ s.readPend = none
      ∧ (movingAt [4]).stallHoming.get .x = false
      ∧ (∀ j < 1, ¬ stoppedAt (movingAt [4]) .x (s.fresh + armingWrites (movingAt [4]) .x + 2 * j + 1))
      ∧ stoppedAt (movingAt [4]) .x (s.fresh + armingWrites (movingAt [4]) .x + 2 * 1 + 1)
      ∧ stoppedAt (movingAt [4]) .x (s.fresh + armingWrites (movingAt [4]) .x + 2 * 1 + 7 + 2 * 0 + 1))
    ∧ (∃ s : State, homing s .y ⟨500#32, 800#32, 2#32, 0#32⟩ .stSmoothOff ∧ s.readPend = none
      ∧ (movingAt [14]).stallHoming.get .y = true
      ∧ stoppedAt (movingAt [14]) .y (s.fresh + armingWrites (movingAt [14]) .y + 2 * 0 + 1)
      ∧ (∀ j < 1,
        ¬ stoppedAt (movingAt [14]) .y (s.fresh + armingWrites (movingAt [14]) .y + 2 * 0 + 7 + 2 * j + 1))
      ∧ stoppedAt (movingAt [14]) .y (s.fresh + armingWrites (movingAt [14]) .y + 2 * 0 + 7 + 2 * 1 + 1)) := by
  refine ⟨⟨inHome .x .swEnable, ⟨rfl, rfl, rfl, rfl, rfl⟩, rfl, rfl, ?_, ?_, ?_⟩,
    ⟨inHome .y .stSmoothOff, ⟨rfl, rfl, rfl, rfl, rfl⟩, rfl, rfl, ?_, ?_, ?_⟩⟩
  · intro j hj; obtain rfl : j = 0 := by omega
    unfold stoppedAt; decide
  · unfold stoppedAt; decide
  · unfold stoppedAt; decide
  · unfold stoppedAt; decide
  · intro j hj; obtain rfl : j = 0 := by omega
    unfold stoppedAt; decide
  · unfold stoppedAt; decide

theorem witness_UnreachedEndstopPollsForever :
    ∃ (K : Params) (s : State), homing s .x ⟨500#32, 800#32, 2#32, 0#32⟩ .seekPoll ∧ s.readPend = none
      ∧ ∀ n, ¬ stoppedAt K .x n :=
  ⟨{ Params.k0 with oracle := fun _ _ _ => 0#32 }, inHome .x .seekPoll, ⟨rfl, rfl, rfl, rfl, rfl⟩, rfl,
    fun _ h => h (show (0#32 : Word) &&& 0x400#32 = 0#32 by decide)⟩

theorem witness_EndstopReadsStatusRegister : acceptsCommand standby := standby_accepts

/-- A CALC that commits into the last free slot. -/
theorem fills : ∃ s t : State, s.full = false
    ∧ act (.hostWrite 0x00 4 0x02000000#32) s = .next t ∧ t.full = true := by
  let s : State := { standby with tail := ringNext Config.params 0#32, plan := [stillBlock] }
  refine ⟨s, calcCommand Config.params s, rfl, rfl, ?_⟩
  rw [calcCommand, hostCommand_accepted rfl rfl (.inr rfl),
    calcBody_good _ s stillBlock [] rfl rfl (by decide)]
  simp [settle, s, standby, State.reset, State.resetWith]

theorem witness_OperationFrames :
    (∃ t, exec (.busRead .x 0#8) standby = .next t) ∧ (∃ t, act .interrupt armed = .next t)
    ∧ Action.interrupt ≠ .reset
    ∧ (∃ s t : State, s.full = false ∧ act (.hostWrite 0x00 4 0x02000000#32) s = .next t ∧ t.full = true)
    ∧ (∃ s t : State, s.full = true ∧ act .interrupt s = .next t ∧ t.full = false) :=
  ⟨⟨_, rfl⟩, ⟨_, rfl⟩, by decide, fills,
    ⟨{ loaded false with head := 0#32, full := true }, _, rfl, rfl, rfl⟩⟩

theorem witness_TraceOnlyGrows :
    (∃ t, exec .idleYield standby = .next t) ∧ (∃ t, act .timerEvent standby = .next t)
    ∧ Action.timerEvent ≠ .reset :=
  ⟨⟨_, rfl⟩, ⟨_, rfl⟩, by decide⟩

/-- The first slot of a ring of ready segments is ready. -/
theorem replicate_ready :
    ((List.replicate Config.params.n.toNat (readySegment true)).getD 0 Segment.atReset).ready = true := by
  simp [List.getD, n_pos, readySegment]

theorem witness_RingIsFifoQueue :
    (∃ s t : State, ringWf Config.params s ∧ s.plan = [b1600]
      ∧ act (.hostWrite 0x00 4 0x02000000#32) s = .next t)
    ∧ (∃ s t : State, ringWf Config.params s ∧ takeable s ∧ s.countdown = 0#32 ∧ s.full = true
      ∧ (s.slot s.tail).ready = true ∧ s.fgOp = none ∧ act .interrupt s = .next t)
    ∧ (∃ s t : State, ringWf Config.params s ∧ act .reset s = .next t) :=
  ⟨⟨{ standby with plan := [b1600] }, _, reset_ringWf, rfl, rfl⟩,
    ⟨{ armed with slots := List.replicate Config.params.n.toNat (readySegment true), full := true }, _,
      ⟨List.length_replicate, reset_ringWf.2.1, reset_ringWf.2.2.1, fun _ => rfl⟩, armed_takeable, rfl, rfl,
      replicate_ready, rfl, rfl⟩,
    ⟨standby, _, reset_ringWf, rfl⟩⟩

theorem witness_StepKeepsRing :
    ∃ s t : State, ringWf Config.params s ∧ step s = .next t :=
  ⟨{ standby with agenda := [.interrupt] }, _, reset_ringWf, rfl⟩

theorem witness_StepKeepsFaultRecord : ∃ s t : State, faultsWf s ∧ step s = .next t :=
  ⟨{ standby with agenda := [.hostRead 0x11 4] }, _, .inl ⟨rfl, rfl⟩, rfl⟩

theorem witness_StepKeepsBetweenSteps :
    ∃ s t : State, s.opPort = none ∧ betweenSteps s ∧ step s = .next t :=
  ⟨{ standby with agenda := [.interrupt] }, _, rfl, ⟨rfl, rfl, rfl, rfl⟩, rfl⟩

theorem witness_StepKeepsTimerOffUntilInit :
    (∃ s t : State, timerWf s ∧ step s = .next t) ∧ timerWf State.reset ∧ State.reset.initDone = false :=
  ⟨⟨{ State.reset with agenda := [.timerEvent] }, _, ⟨rfl, rfl, rfl⟩, rfl⟩, ⟨rfl, rfl, rfl⟩, rfl⟩

theorem witness_StepKeepsSequencing :
    ∃ s t : State, s.opPort = none ∧ sequencingWf Config.params s ∧ step s = .next t :=
  ⟨{ standby with agenda := [.foreground] }, _, rfl, .inl ⟨rfl, rfl, rfl, rfl, rfl, rfl⟩, rfl⟩

theorem witness_StepKeepsOwnFaults :
    ∃ s t : State, s.opPort = none ∧ ownFaults s ∧ step s = .next t :=
  ⟨{ standby with agenda := [.hostRead 0x11 4] }, _, rfl, nofun, rfl⟩

end Sys2Proof.Tests
end

section
/-! SUPPORT. Frames of the instructions and of the agents: every step writes its own fields only, or records one
of its faults and does nothing else. -/

namespace Sys2Proof.Machine

/-! ### A step that stops -/

/-- A step that stops changes nothing but the fault record, so its result is any frame `w` of it. -/
theorem stoppedBy.frame {cs cs' : List FaultCode} {s t : State} {w : State → State → State}
    (h : stoppedBy cs s t) (hcs : cs ⊆ cs') (hw : w s s = s) : t = w s t ∨ onlyFault cs' s t := by
  rcases h with ⟨_, rfl⟩ | ⟨hf, c, hc, rfl⟩
  · exact .inl hw.symm
  · exact .inr ⟨hf, c, hcs hc, by simp [raiseFault, hf]⟩

theorem stoppedBy.mono {cs cs' : List FaultCode} {s t : State} (h : stoppedBy cs s t) (hcs : cs ⊆ cs') :
    stoppedBy cs' s t :=
  h.imp_right fun ⟨hf, c, hc, e⟩ => ⟨hf, c, hcs hc, e⟩

/-- Taking every field from the state itself changes nothing. -/
theorem writtenBy_self (i : Instr) (s : State) : writtenBy i s s = s := by
  cases i <;> simp [writtenBy, slots_set_slot]

theorem writtenByAgent_self (α : Action) (s : State) : writtenByAgent α s s = s := by
  cases α with
  | foreground => simp only [writtenByAgent]; split <;> simp
  | hostWrite addr n v => simp [writtenByAgent]
  | interrupt => exact writtenBy_self .timerCompare s
  | hostRead | hostAppend | timerEvent | reset => rfl

/-! ### Frames of the instructions -/

/-- An instruction that stops, or writes its own fields only, has its frame. -/
theorem exec_frame_of {i : Instr} {cs : List FaultCode} {s t : State}
    (h : stoppedBy cs s t ∨ t = writtenBy i s t)
    (hcs : cs ⊆ faultsOf i := by simp [issueFaults, faultsOf]) :
    t = writtenBy i s t ∨ onlyFault (faultsOf i) s t :=
  h.elim (fun h => h.frame hcs (writtenBy_self i s)) .inl

/-- Where `t` differs from `s` in slot `i` at most, its slots are those of `s` with that slot taken from
`t`. -/
theorem set_slot_of_slots {s t : State} {i : Word} {g : Segment} (h : t.slots = s.slots.set i.toNat g) :
    s.slots.set i.toNat (t.slot i) = t.slots := by
  rw [State.slot, h, slots_set_getD]

theorem set_slot_of_slots_eq {s t : State} {i : Word} (h : t.slots = s.slots) :
    s.slots.set i.toNat (t.slot i) = t.slots :=
  set_slot_of_slots (h.trans (slots_set_slot s i).symm)

theorem interruptStep_frame (K : Params) (s : State) :
    stoppedBy [.busContention] s (interruptStep K s)
    ∨ interruptStep K s = writtenBy .timerCompare s (interruptStep K s) := by
  rcases interruptStep_inv K s with ⟨_, e⟩ | ⟨_, _, e⟩ | ⟨_, _, e⟩ | ⟨hk, _, _, _, e⟩
    | ⟨_, _, _, _, evs, _, e⟩
  · exact .inr (by rw [e, writtenBy_self])
  · exact .inr (by rw [writtenBy, set_slot_of_slots_eq (by rw [e]), e])
  · exact .inr (by rw [writtenBy, set_slot_of_slots_eq (by rw [e]), e])
  · obtain ⟨_, _, _, _, _, hf⟩ := hk
    exact .inl (.inr ⟨hf, _, List.mem_singleton_self _, e⟩)
  · exact .inr (by rw [writtenBy, set_slot_of_slots (by rw [e]), e])

theorem calcCommand_frame (K : Params) (s : State) :
    stoppedBy (.badBlock :: issueFaults false) s (calcCommand K s)
    ∨ calcCommand K s = writtenBy .calculate s (calcCommand K s) := by
  rcases calcCommand_inv K s with h | ⟨_, _, e⟩ | ⟨_, _, b, rest, _, e⟩
  · exact .inl h
  · exact .inr (by rw [writtenBy, set_slot_of_slots_eq (by rw [e]), e])
  · exact .inr (by rw [writtenBy, set_slot_of_slots (by rw [e]), e])

/-- Every instruction's step stays within its frame, or records one of its faults and does nothing else. -/
theorem exec_frame {i : Instr} {s t : State} (h : exec i s = .next t) :
    t = writtenBy i s t ∨ onlyFault (faultsOf i) s t := by
  cases i <;> obtain rfl := Host.Outcome.next.inj h
  case init =>
    exact exec_frame_of ((initCommand_inv _ s).imp_right fun ⟨_, _, _, e⟩ => by rw [e]; rfl)
  case calculate => exact exec_frame_of (calcCommand_frame _ s)
  case home a =>
    exact exec_frame_of ((homeCommand_inv _ a s).imp_right fun ⟨_, _, _, e⟩ => by rw [e]; rfl)
  case setpos a =>
    exact exec_frame_of ((setposCommand_inv a s).imp_right fun ⟨_, e⟩ => by rw [e]; simp [writtenBy])
  case getpos a =>
    exact exec_frame_of ((getposCommand_inv a s).imp_right fun ⟨_, e⟩ => by rw [e]; rfl)
  case rbCount =>
    exact exec_frame_of ((rbCountCommand_inv _ s).imp_right fun ⟨_, e⟩ => by rw [e]; rfl)
  case endstop a =>
    exact exec_frame_of ((endstopCommand_inv a s).imp_right fun ⟨_, _, e⟩ => by rw [e]; rfl)
  case busWrite a r v =>
    exact exec_frame_of (cs := [])
      ((busWriteOp_inv _ a r v s).imp .inl fun ⟨_, e⟩ => by rw [e]; simp [writtenBy])
  case busRead a r =>
    exact exec_frame_of (cs := [])
      ((busReadOp_inv _ a r s).imp .inl fun ⟨_, e⟩ => by rw [e, busReadFirst_eq]; simp [writtenBy])
  case rbTryEnqueue =>
    rcases rbTryEnqueueOp_inv s with h | ⟨_, _, e⟩ | ⟨_, _, e⟩
    · exact exec_frame_of (cs := []) (.inl (.inl h))
    · exact .inl (by rw [e]; rfl)
    · exact .inl (by rw [e]; rfl)
  case rbCommit =>
    exact exec_frame_of ((rbCommitOp_inv _ s).imp_right fun ⟨_, _, _, e⟩ => by rw [e]; rfl)
  case rbPeekReady =>
    exact exec_frame_of (cs := []) ((rbPeekReadyOp_inv s).imp .inl fun ⟨_, e⟩ => by rw [e]; rfl)
  case rbDiscard =>
    exact exec_frame_of ((rbDiscardOp_inv _ s).imp_right fun ⟨_, _, e⟩ => by rw [e]; rfl)
  case csEnter =>
    exact exec_frame_of (cs := []) ((csEnterOp_inv s).imp .inl fun ⟨_, e⟩ => by rw [e]; rfl)
  case csExit =>
    exact exec_frame_of ((csExitOp_inv s).imp_right fun ⟨_, _, e⟩ => by rw [e]; rfl)
  case idleYield =>
    exact exec_frame_of (cs := []) ((idleYieldOp_inv s).imp .inl fun ⟨_, e⟩ => by rw [e]; rfl)
  case timerCompare => exact exec_frame_of (interruptStep_frame _ s)
  case planGet =>
    exact exec_frame_of (cs := []) ((planGetOp_inv s).imp .inl fun ⟨_, e⟩ => by rw [e]; rfl)
  case planDiscard =>
    exact exec_frame_of (cs := []) ((planDiscardOp_inv s).imp .inl fun ⟨_, e⟩ => by rw [e]; rfl)

/-! ### The foreground unit -/

/-- The phases of 44_homing.md R220 whose action is one event that no device sees: the event and the next
phase. Beside the tables `homeWriteRow` and `homePollRow`. -/
def homeEventRow (a : Axis) : HomePhase → Option (Event × HomePhase)
  | .swEnable => some (.driverEnable a, .swVmax)
  | .seekYield => some (.yield, .seekPoll)
  | .retYield => some (.yield, .retPoll)
  | _ => none

/-- Everything a step of HOME can do, by the tables of 44_homing.md R220. -/
theorem homeStep_cases (K : Params) (a : Axis) (p : HomeParams) (s : State) :
    (s.homePhase = .idle ∧ homeStep K a p s = s)
    ∨ (∃ r v next, homeWriteRow K a p s.homePhase = some (r, v, next) ∧ homeStep K a p s
      = toPhase next (if s.homePhase = .tZeroTgt then homeSetPos a 0#32 (devWrite K a r v s)
        else devWrite K a r v s))
    ∨ (∃ e next, homeEventRow a s.homePhase = some (e, next)
      ∧ homeStep K a p s = toPhase next (emit e s))
    ∨ (∃ stopped moving, homePollRow K a s.homePhase = some (stopped, moving)
      ∧ homeStep K a p s = homePoll K a stopped moving s)
    ∨ (s.homePhase = .done ∧ homeStep K a p s = homeFinish a p s) := by
  cases h : s.homePhase <;> simp only [homeStep, h]
  case idle => exact .inl (by simp)
  case swEnable | seekYield | retYield => exact .inr (.inr (.inl ⟨_, _, rfl, rfl⟩))
  case seekPoll | retPoll => exact .inr (.inr (.inr (.inl ⟨_, _, rfl, rfl⟩)))
  case done => exact .inr (.inr (.inr (.inr (by simp))))
  all_goals exact .inr (.inl ⟨_, _, _, rfl, by simp⟩)

/-- A foreground step may write every field that `t` takes from itself here; of the counters, none
(10_state.md R21). -/
theorem writtenByAgent_foreground {s t : State} (hp : t.pos = s.pos)
    (ht : t = { s with
      result := t.result, fgOp := t.fgOp, homeAxis := t.homeAxis, homeParams := t.homeParams
      homePhase := t.homePhase, endCall := t.endCall, readPend := t.readPend, ret := t.ret
      cs := t.cs, devLatch := t.devLatch, fresh := t.fresh, trace := t.trace }) :
    t = writtenByAgent .foreground s t := by
  simp only [writtenByAgent, hp]
  split
  · rw [PerAxis.set_get]; exact ht
  · exact ht

/-- As `writtenByAgent_foreground`, where HOME writes the counter of its own axis. -/
theorem writtenByAgent_homing {s t : State} {a : Axis} (ha : s.homeAxis = some a)
    (ht : t = { s with
      result := t.result, fgOp := t.fgOp, homeAxis := t.homeAxis, homeParams := t.homeParams
      homePhase := t.homePhase, endCall := t.endCall, readPend := t.readPend, ret := t.ret
      pos := s.pos.set a (t.pos.get a)
      cs := t.cs, devLatch := t.devLatch, fresh := t.fresh, trace := t.trace }) :
    t = writtenByAgent .foreground s t := by
  simp only [writtenByAgent, ha]
  exact ht.trans (by simp)

theorem homePoll_frame (K : Params) (a : Axis) (stopped moving : HomePhase) (s : State) :
    homePoll K a stopped moving s
      = writtenByAgent .foreground s (homePoll K a stopped moving s) := by
  rw [homePoll_eq]
  split
  · rw [busReadSecond_eq]; exact writtenByAgent_foreground rfl rfl
  · rw [busReadFirst_eq]; exact writtenByAgent_foreground rfl rfl

theorem homeStep_frame (K : Params) {a : Axis} (p : HomeParams) {s : State} (ha : s.homeAxis = some a) :
    homeStep K a p s = writtenByAgent .foreground s (homeStep K a p s) := by
  rcases homeStep_cases K a p s with ⟨_, e⟩ | ⟨r, v, next, _, e⟩ | ⟨ev, next, _, e⟩ | ⟨st, mv, _, e⟩ | ⟨_, e⟩
  · rw [e, writtenByAgent_self]
  · rw [e, homeSetPos_eq, devWrite_eq]
    split
    · exact writtenByAgent_homing ha (by simp [toPhase])
    · exact writtenByAgent_foreground rfl rfl
  · rw [e]; exact writtenByAgent_foreground rfl rfl
  · rw [e]; exact homePoll_frame K a st mv s
  · rw [e, homeFinish, homeSetPos_eq]; exact writtenByAgent_homing ha (by simp)

theorem foregroundStep_frame (K : Params) (s : State) :
    foregroundStep K s = writtenByAgent .foreground s (foregroundStep K s) := by
  rcases foregroundStep_inv K s with e | ⟨_, _, p, _, e⟩ | ⟨_, _, a, p, ha, _, e⟩ | ⟨_, _, c, _, e⟩
  · rw [e, writtenByAgent_self]
  · rw [e, finishRead, busReadSecond_eq]; exact writtenByAgent_foreground rfl rfl
  · rw [e]; exact homeStep_frame K p ha
  · rw [e, endstopStep_eq, busReadSecond_eq, busReadFirst_eq]
    split <;> exact writtenByAgent_foreground rfl rfl

/-! ### Frames of the agents -/

theorem illegalAccess_stops (s : State) : stoppedBy [.illegalAccess] s (illegalAccess s) :=
  (unitStep_inv _ s).imp_right fun ⟨hf, e⟩ => ⟨hf, _, List.mem_singleton_self _, e⟩

theorem rejectCommand_stops (s : State) : stoppedBy [.busy, .illegalCommand] s (rejectCommand s) :=
  (unitStep_inv _ s).imp_right fun ⟨hf, e⟩ => ⟨hf, _, by split <;> simp, e⟩

/-- A host read stops, or gives the host its value (20_memory.md R72, R73). -/
theorem hostRead_cases (addr n : Nat) (s : State) :
    stoppedBy [.illegalAccess] s (hostRead addr n s)
    ∨ hostRead addr n s = { s with hostData := windowRead s addr } := by
  unfold hostRead
  split
  · exact .inr rfl
  · exact .inl (illegalAccess_stops s)

/-- A write to `CMD` stops or is the issue of an admitted command (30_encoding.md R104, R107). -/
theorem issueCommand_cases {w : Word} {s t : State} (h : issueCommand w s = .next t) :
    stoppedBy [.busy, .illegalCommand] s t
    ∨ ∃ i, decode w 0#32 = .ok i ∧ i.opcode.hostIssuable = true ∧ exec i s = .next t := by
  have rejected (h : (.next (rejectCommand s) : Result) = .next t) :
      stoppedBy [.busy, .illegalCommand] s t := Host.Outcome.next.inj h ▸ rejectCommand_stops s
  unfold issueCommand at h
  split at h
  · split at h
    · exact .inr ⟨_, by assumption, by assumption, h⟩
    · exact .inl (rejected h)
  · exact .inl (rejected h)

/-- A host write stops, is the issue of an admitted command, writes `ARG0`, or does nothing (20_memory.md R72,
R73). -/
theorem hostWrite_cases {addr n : Nat} {v : Word} {s t : State} (h : hostWrite addr n v s = .next t) :
    stoppedBy [.illegalAccess, .busy, .illegalCommand] s t
    ∨ (addr = 0x00 ∧ n = 4 ∧ ∃ i, decode v 0#32 = .ok i ∧ i.opcode.hostIssuable = true
      ∧ exec i s = .next t)
    ∨ (addr = 0x04 ∧ n = 4 ∧ t = { s with arg0 := v })
    ∨ t = s := by
  unfold hostWrite at h
  split at h
  case isTrue hl =>
    obtain ⟨rfl, -⟩ : n = 4 ∧ _ := by simpa [legalAccess] using hl
    split at h
    · exact (issueCommand_cases h).imp (·.mono (by simp)) fun hc => .inl ⟨by assumption, rfl, hc⟩
    · split at h
      · exact .inr (.inr (.inl ⟨by assumption, rfl, (Host.Outcome.next.inj h).symm⟩))
      · exact .inr (.inr (.inr (Host.Outcome.next.inj h).symm))
  case isFalse =>
    obtain rfl := Host.Outcome.next.inj h
    exact .inl ((illegalAccess_stops s).mono (by simp))

/-- Every agent's step stays within its frame, records one of its faults and does nothing else, or is the
issue of an admitted command. -/
theorem act_frame {α : Action} {s t : State} (h : act α s = .next t) :
    t = writtenByAgent α s t ∨ onlyFault (faultsOfAgent α) s t
    ∨ ∃ (w : Word) (i : Instr), α = .hostWrite 0x00 4 w ∧ decode w 0#32 = .ok i
      ∧ i.opcode.hostIssuable = true ∧ exec i s = .next t := by
  cases α with
  | hostRead addr n =>
    obtain rfl := Host.Outcome.next.inj h
    rcases hostRead_cases addr n s with hs | e
    · exact (hs.frame (List.Subset.refl _) (writtenByAgent_self _ s)).imp_right .inl
    · exact .inl (by rw [e]; rfl)
  | hostWrite addr n v =>
    rcases hostWrite_cases h with hs | ⟨rfl, rfl, i, hi, hh, he⟩ | ⟨rfl, _, e⟩ | e
    · exact (hs.frame (List.Subset.refl _) (writtenByAgent_self _ s)).imp_right .inl
    · exact .inr (.inr ⟨v, i, rfl, hi, hh, he⟩)
    · exact .inl (by rw [e]; rfl)
    · exact .inl (by rw [e, writtenByAgent_self])
  | hostAppend b =>
    obtain rfl := Host.Outcome.next.inj h
    unfold hostAppend
    split <;> exact .inl rfl
  | foreground =>
    obtain rfl := Host.Outcome.next.inj h
    exact .inl (foregroundStep_frame _ s)
  | timerEvent =>
    obtain rfl := Host.Outcome.next.inj h
    unfold timerStep
    split <;> exact .inl rfl
  | interrupt => exact (exec_frame (i := .timerCompare) h).imp_right .inl
  | reset => exact .inl rfl

end Sys2Proof.Machine
end

section
/-! SUPPORT. Which fields a step leaves unchanged, and the statement of the frames. -/

namespace Sys2Proof.Machine

/-! ### What a step leaves unchanged

`f` stands for the fields in question; `hf` says that the fault record is not one of them. -/

section
variable {β : Type} (f : State → β)
  (hf : ∀ (s : State) (cs : List FaultCode) (b : Byte), f { s with faults := cs, firstFault := b } = f s)
include hf

theorem stoppedBy.unwritten {cs : List FaultCode} {s t : State} (h : stoppedBy cs s t) : f t = f s := by
  rcases h with ⟨_, rfl⟩ | ⟨_, c, _, rfl⟩
  · rfl
  · exact hf s _ _

theorem exec_unwritten {i : Instr} {s t : State} (h : exec i s = .next t)
    (hw : f (writtenBy i s t) = f s) : f t = f s := by
  rcases exec_frame h with e | ⟨_, c, _, e⟩
  · exact (congrArg f e).trans hw
  · exact (congrArg f e).trans (hf s _ _)

theorem act_unwritten {α : Action} {s t : State} (h : act α s = .next t)
    (hw : f (writtenByAgent α s t) = f s)
    (hc : ∀ (w : Word) (i : Instr), α = .hostWrite 0x00 4 w → decode w 0#32 = .ok i →
      i.opcode.hostIssuable = true → exec i s = .next t → f t = f s) : f t = f s := by
  rcases act_frame h with e | ⟨_, c, _, e⟩ | ⟨w, i, hα, hi, hh, he⟩
  · exact (congrArg f e).trans hw
  · exact (congrArg f e).trans (hf s _ _)
  · exact hc w i hα hi hh he

end

/-- A host write that is no command writes `ARG0` or nothing. -/
theorem writtenByAgent_hostWrite (addr n : Nat) (v : Word) (s t : State) :
    writtenByAgent (.hostWrite addr n v) s t
      = { s with arg0 := if addr = 0x04 then t.arg0 else s.arg0 } := by
  simp only [writtenByAgent]
  split <;> rfl

/-! ### Who writes what -/

/-- A command word is put together from its fields. -/
theorem word_of_fields (w : Word) :
    opcField w ++ (axField w ++ (rsvField w ++ regField w)) = w := by
  apply BitVec.eq_of_getLsbD_eq
  intro k hk
  simp only [opcField, axField, rsvField, regField, BitVec.getLsbD_append, BitVec.getLsbD_extractLsb']
  grind

/-- CALC has one command word (30_encoding.md R103). -/
theorem word_of_decode_calculate {w v : Word} (h : decode w v = .ok .calculate) : w = 0x02000000#32 := by
  unfold decode at h
  split at h
  · cases h
  · rename_i o ho
    split_ifs at h with h1 h2 h3
    obtain rfl : o = .calculate := by cases o <;> simp [Opcode.instr] at h ⊢
    have hc : opcField w = 0x02#8 := by
      unfold Opcode.ofCode at ho
      exact (beq_iff_eq.1 (List.find?_some ho :)).symm
    have hr : rsvField w = 0#15 := by simpa using h1
    have hg : regField w = 0#7 := by simpa [Opcode.usesReg] using h2
    have ha : axField w = 0#2 := by simpa [Opcode.usesAxis] using h3
    rw [← word_of_fields w, hc, ha, hr, hg]
    rfl

/-- Of the host commands only CALC writes the snapshot and the head (10_state.md R32, R33). -/
theorem exec_snap_head {i : Instr} (hh : i.opcode.hostIssuable = true) (hn : i ≠ .calculate) {s t : State}
    (h : exec i s = .next t) : (t.snap, t.head) = (s.snap, s.head) := by
  refine exec_unwritten (fun s => (s.snap, s.head)) (fun _ _ _ => rfl) h ?_
  cases i with
  | calculate => exact absurd rfl hn
  | rbCommit => cases hh
  | _ => rfl

/-- No host command writes the countdown and the tail. -/
theorem exec_countdown_tail {i : Instr} (hh : i.opcode.hostIssuable = true) {s t : State}
    (h : exec i s = .next t) : (t.countdown, t.tail) = (s.countdown, s.tail) := by
  refine exec_unwritten (fun s => (s.countdown, s.tail)) (fun _ _ _ => rfl) h ?_
  cases i with
  | rbDiscard | timerCompare => cases hh
  | _ => rfl

/-- Of the host commands only CALC writes `full`. -/
theorem exec_full {i : Instr} (hh : i.opcode.hostIssuable = true) (hn : i ≠ .calculate) {s t : State}
    (h : exec i s = .next t) : t.full = s.full := by
  refine exec_unwritten State.full (fun _ _ _ => rfl) h ?_
  cases i with
  | calculate => exact absurd rfl hn
  | rbCommit | rbDiscard | timerCompare => cases hh
  | _ => rfl

/-- CALC does not clear `full` (41_ring_buffer.md R151). -/
theorem execCalc_full {s t : State} (h : exec .calculate s = .next t) (hs : s.full = true) :
    t.full = true := by
  obtain rfl := Host.Outcome.next.inj h
  rcases calcCommand_inv Config.params s with hst | ⟨_, _, e⟩ | ⟨_, hn, _⟩
  · exact (hst.unwritten State.full fun _ _ _ => rfl).trans hs
  · rw [e]; exact hs
  · simp [hs] at hn

/-- The handler does not set `full` (41_ring_buffer.md R151). -/
theorem execTimerCompare_full {s t : State} (h : exec .timerCompare s = .next t) (hs : s.full = false) :
    t.full = false := by
  obtain rfl := Host.Outcome.next.inj h
  rcases interruptStep_inv Config.params s with ⟨_, e⟩ | ⟨_, _, e⟩ | ⟨_, _, e⟩ | ⟨_, _, _, _, e⟩
    | ⟨_, _, _, _, _, _, e⟩
  · rw [e]; exact hs
  · rw [e]; exact hs
  · rw [e]; exact hs
  · rw [e]; exact hs
  · rw [e]

/-- No agent's step but reset writes a direction multiplier or the interrupt enable. -/
theorem act_dirmult_gie {α : Action} {s t : State} (hr : α ≠ .reset) (h : act α s = .next t) :
    (t.dirmult, t.gie) = (s.dirmult, s.gie) := by
  refine act_unwritten (fun s => (s.dirmult, s.gie)) (fun _ _ _ => rfl) h ?_ fun _ i _ _ _ he =>
    exec_unwritten (fun s => (s.dirmult, s.gie)) (fun _ _ _ => rfl) he (by cases i <;> rfl)
  cases α with
  | reset => exact absurd rfl hr
  | hostWrite => rw [writtenByAgent_hostWrite]
  | _ => rfl

/-- The snapshot and the head change by the command CALC alone. -/
theorem act_snap_head {α : Action} {s t : State} (hr : α ≠ .reset)
    (hn : α ≠ .hostWrite 0x00 4 0x02000000#32) (h : act α s = .next t) :
    (t.snap, t.head) = (s.snap, s.head) := by
  refine act_unwritten (fun s => (s.snap, s.head)) (fun _ _ _ => rfl) h ?_ fun w i hα hi hh he =>
    exec_snap_head hh (fun hc => hn ?_) he
  · cases α with
    | reset => exact absurd rfl hr
    | hostWrite => rw [writtenByAgent_hostWrite]
    | _ => rfl
  · subst hc; rw [hα, word_of_decode_calculate hi]

/-- The countdown and the tail change by the handler alone. -/
theorem act_countdown_tail {α : Action} {s t : State} (hr : α ≠ .reset) (hn : α ≠ .interrupt)
    (h : act α s = .next t) : (t.countdown, t.tail) = (s.countdown, s.tail) := by
  refine act_unwritten (fun s => (s.countdown, s.tail)) (fun _ _ _ => rfl) h ?_
    fun _ _ _ _ hh he => exec_countdown_tail hh he
  cases α with
  | reset => exact absurd rfl hr
  | interrupt => exact absurd rfl hn
  | hostWrite => rw [writtenByAgent_hostWrite]
  | _ => rfl

/-- `ARG0` changes by the host's write to it alone. -/
theorem act_arg0 {α : Action} {s t : State} (hr : α ≠ .reset) (hn : ∀ v, α ≠ .hostWrite 0x04 4 v)
    (h : act α s = .next t) : t.arg0 = s.arg0 := by
  have command {i : Instr} (he : exec i s = .next t) : t.arg0 = s.arg0 :=
    exec_unwritten State.arg0 (fun _ _ _ => rfl) he (by cases i <;> rfl)
  cases α with
  | reset => exact absurd rfl hr
  | hostWrite addr n v =>
    rcases hostWrite_cases h with hs | ⟨_, _, i, _, _, he⟩ | ⟨rfl, rfl, _⟩ | rfl
    · exact hs.unwritten State.arg0 fun _ _ _ => rfl
    · exact command he
    · exact absurd rfl (hn v)
    · rfl
  | _ => exact act_unwritten State.arg0 (fun _ _ _ => rfl) h rfl fun _ _ _ _ _ he => command he

/-- `full` changes by the command CALC and the handler alone. -/
theorem act_full {α : Action} {s t : State} (hr : α ≠ .reset) (hn : α ≠ .interrupt)
    (hc : α ≠ .hostWrite 0x00 4 0x02000000#32) (h : act α s = .next t) : t.full = s.full := by
  refine act_unwritten State.full (fun _ _ _ => rfl) h ?_ fun w i hα hi hh he =>
    exec_full hh (fun hcalc => hc ?_) he
  · cases α with
    | reset => exact absurd rfl hr
    | interrupt => exact absurd rfl hn
    | hostWrite => rw [writtenByAgent_hostWrite]
    | _ => rfl
  · subst hcalc; rw [hα, word_of_decode_calculate hi]

/-- The word of CALC written to `CMD` runs CALC. -/
theorem act_calculate (s : State) : act (.hostWrite 0x00 4 0x02000000#32) s = exec .calculate s := rfl

/-- Settles O52: the frames of `exec_frame` and `act_frame`, and what they leave unchanged; the direction of
a change of `full` is CALC's and the handler's own. -/
theorem operationFrames : Obligations.OperationFrames := by
  refine ⟨fun i s t h => exec_frame h, fun α s t h => act_frame h, fun α s t hr h => ?_⟩
  obtain ⟨hd, hg⟩ := Prod.mk.inj (act_dirmult_gie hr h)
  refine ⟨hd, hg, fun hn => Prod.mk.inj (act_snap_head hr hn h),
    fun hn => Prod.mk.inj (act_countdown_tail hr hn h), fun hn => act_arg0 hr hn h, ?_, ?_⟩
  · intro hs ht
    by_contra hc
    by_cases hi : α = .interrupt
    · subst hi; simp [execTimerCompare_full h hs] at ht
    · simp [act_full hr hi hc h, hs] at ht
  · intro hs ht
    by_contra hi
    by_cases hc : α = .hostWrite 0x00 4 0x02000000#32
    · subst hc; simp [execCalc_full (act_calculate s ▸ h) hs] at ht
    · simp [act_full hr hi hc h, hs] at ht

end Sys2Proof.Machine
end

section
/-! SUPPORT. The invariants of the state, each kept by every step: the trace and the select lines, the
ring, the fault record, the controls. -/

namespace Sys2Proof.Machine

/-! ### One step of the machine -/

/-- A step runs a staged operation from the emptied port, or, the port being empty, takes the step of an agent
in a state that differs in the choices to come and the count of free values alone. -/
theorem step_cases {s t : State} (h : step s = .next t) :
    (s.opPort ≠ none ∧ ∃ i, exec i { s with opPort := none } = .next t)
    ∨ (s.opPort = none ∧ ∃ α rest n, act α { s with agenda := rest, fresh := n } = .next t) := by
  unfold step runStep at h
  split at h
  case h_1 o ho =>
    unfold runStaged at h
    split at h
    · exact .inl ⟨by simp [ho], _, h⟩
    · cases h
  case h_2 ho =>
    unfold runAgents at h
    split at h
    · exact .inr ⟨ho, _, _, s.fresh, h⟩
    · exact .inr ⟨ho, _, s.agenda, _, h⟩

/-- The host's accesses and the timer write at most what belongs to them. -/
theorem external_of_frame {α : Action} {s t : State} (h : t = writtenByAgent α s t) (hf : α ≠ .foreground)
    (hi : α ≠ .interrupt) (hr : α ≠ .reset) : t = { s with
      arg0 := t.arg0, hostData := t.hostData, plan := t.plan
      tmr := { s.tmr with pending := t.tmr.pending }, faults := t.faults, firstFault := t.firstFault } := by
  cases α with
  | foreground => exact absurd rfl hf
  | interrupt => exact absurd rfl hi
  | reset => exact absurd rfl hr
  | hostWrite => rw [writtenByAgent_hostWrite] at h; rw [h]
  | hostRead | hostAppend | timerEvent => rw [h]; rfl

/-- An agent's step is that of an instruction the agents run, of the foreground unit, the reset, or it writes
at most what belongs to the host, the timer's pending event and the fault record. -/
theorem act_cases {α : Action} {s t : State} (h : act α s = .next t) :
    (α ≠ .reset ∧ ∃ i, (i.opcode.hostIssuable = true ∨ i = .timerCompare) ∧ exec i s = .next t)
    ∨ (α = .foreground ∧ t = foregroundStep Config.params s)
    ∨ (α = .reset ∧ t = resetStep Config.params s)
    ∨ (α ≠ .reset ∧ t = { s with
      arg0 := t.arg0, hostData := t.hostData, plan := t.plan
      tmr := { s.tmr with pending := t.tmr.pending }, faults := t.faults, firstFault := t.firstFault }) := by
  cases α with
  | foreground => exact .inr (.inl ⟨rfl, (Host.Outcome.next.inj h).symm⟩)
  | interrupt => exact .inl ⟨nofun, .timerCompare, .inr rfl, h⟩
  | reset => exact .inr (.inr (.inl ⟨rfl, (Host.Outcome.next.inj h).symm⟩))
  | hostRead | hostWrite | hostAppend | timerEvent =>
    rcases act_frame h with e | ⟨_, c, _, e⟩ | ⟨w, i, _, _, hh, he⟩
    · exact .inr (.inr (.inr ⟨nofun, external_of_frame e nofun nofun nofun⟩))
    · exact .inr (.inr (.inr ⟨nofun, by rw [e]⟩))
    · exact .inl ⟨nofun, i, .inl hh, he⟩

/-! ### The trace and the select lines -/

/-- What the chips see of a step: events are appended to the trace, and select lines that were released are
released at its end (10_state.md R40, R47). -/
structure Outward (s t : State) : Prop where
  trace : s.trace <+: t.trace
  cs : s.cs = .const false → t.cs = .const false

theorem Outward.of_eq {s t : State} (h : (t.trace, t.cs) = (s.trace, s.cs)) : Outward s t := by
  obtain ⟨ht, hc⟩ := Prod.mk.inj h
  exact ⟨ht ▸ List.prefix_rfl, fun hs => hc.trans hs⟩

theorem set_released {cs : PerAxis Bool} (a : Axis) (h : cs = .const false) :
    cs.set a false = .const false := by
  subst h; cases a <;> rfl

theorem csAfter_released (ws : List RegWrite) {cs : PerAxis Bool} (h : cs = .const false) :
    csAfter ws cs = .const false := by
  induction ws generalizing cs with
  | nil => exact h
  | cons w ws ih => exact ih (set_released w.axis h)

/-- A step that appends events and leaves the select lines to frames it sent. -/
theorem Outward.of_append {s t : State} {evs : List Event} (ht : t.trace = s.trace ++ evs)
    (hc : s.cs = .const false → t.cs = .const false) : Outward s t :=
  ⟨ht ▸ List.prefix_append _ _, hc⟩

theorem stoppedBy.outward {cs : List FaultCode} {s t : State} (h : stoppedBy cs s t) : Outward s t :=
  .of_eq (h.unwritten (fun s => (s.trace, s.cs)) fun _ _ _ => rfl)

theorem exec_outward {i : Instr} {s t : State} (h : exec i s = .next t) : Outward s t := by
  have silent (hw : ((writtenBy i s t).trace, (writtenBy i s t).cs) = (s.trace, s.cs)) : Outward s t :=
    .of_eq (exec_unwritten (fun s => (s.trace, s.cs)) (fun _ _ _ => rfl) h hw)
  cases i with
  | init =>
    obtain rfl := Host.Outcome.next.inj h
    rcases initCommand_inv Config.params s with hs | ⟨_, _, evs, e⟩
    · exact hs.outward
    · rw [e]; exact .of_append (List.append_assoc _ _ _) (csAfter_released _)
  | calculate =>
    obtain rfl := Host.Outcome.next.inj h
    rcases calcCommand_inv Config.params s with hs | ⟨_, _, e⟩ | ⟨_, _, b, rest, _, e⟩
    · exact hs.outward
    · rw [e]; exact .of_eq rfl
    · rw [e]; exact .of_append rfl id
  | busWrite a r v =>
    obtain rfl := Host.Outcome.next.inj h
    rcases busWriteOp_inv Config.params a r v s with ⟨_, e⟩ | ⟨_, e⟩
    · rw [e]; exact .of_eq rfl
    · rw [e]; exact .of_append rfl (set_released a)
  | busRead a r =>
    obtain rfl := Host.Outcome.next.inj h
    rcases busReadOp_inv Config.params a r s with ⟨_, e⟩ | ⟨_, e⟩
    · rw [e]; exact .of_eq rfl
    · rw [e, busReadFirst_eq]; exact .of_append rfl (set_released a)
  | idleYield =>
    obtain rfl := Host.Outcome.next.inj h
    rcases idleYieldOp_inv s with ⟨_, e⟩ | ⟨_, e⟩
    · rw [e]; exact .of_eq rfl
    · rw [e]; exact .of_append rfl id
  | timerCompare =>
    obtain rfl := Host.Outcome.next.inj h
    rcases interruptStep_inv Config.params s with ⟨_, e⟩ | ⟨_, _, e⟩ | ⟨_, _, e⟩ | ⟨_, _, _, _, e⟩
      | ⟨_, _, _, _, evs, _, e⟩
    · rw [e]; exact .of_eq rfl
    · rw [e]; exact .of_append rfl id
    · rw [e]; exact .of_eq rfl
    · rw [e]; exact .of_eq rfl
    · rw [e]; exact .of_append rfl (csAfter_released _)
  | planDiscard =>
    obtain rfl := Host.Outcome.next.inj h
    rcases planDiscardOp_inv s with ⟨_, e⟩ | ⟨_, e⟩
    · rw [e]; exact .of_eq rfl
    · rw [e]; exact .of_append rfl id
  | _ => exact silent rfl

theorem homeStep_outward (K : Params) (a : Axis) (p : HomeParams) (s : State) :
    Outward s (homeStep K a p s) := by
  rcases homeStep_cases K a p s with ⟨_, e⟩ | ⟨r, v, next, _, e⟩ | ⟨ev, next, _, e⟩ | ⟨st, mv, _, e⟩ | ⟨_, e⟩
  · rw [e]; exact .of_eq rfl
  · rw [e, homeSetPos_eq, devWrite_eq]
    split <;> exact .of_append rfl (set_released a)
  · rw [e]; exact .of_append rfl id
  · rw [e, homePoll_eq, busReadSecond_eq, busReadFirst_eq]
    split <;> exact .of_append rfl (set_released a)
  · rw [e]; exact .of_eq rfl

theorem foregroundStep_outward (K : Params) (s : State) : Outward s (foregroundStep K s) := by
  rcases foregroundStep_inv K s with e | ⟨_, _, p, _, e⟩ | ⟨_, _, a, p, _, _, e⟩ | ⟨_, _, c, _, e⟩
  · rw [e]; exact .of_eq rfl
  · rw [e, finishRead, busReadSecond_eq]; exact .of_append rfl (set_released _)
  · rw [e]; exact homeStep_outward K a p s
  · rw [e, endstopStep_eq, busReadSecond_eq, busReadFirst_eq]
    split <;> exact .of_append rfl (set_released _)

/-- Every agent's step but reset. -/
theorem act_outward {α : Action} {s t : State} (hr : α ≠ .reset) (h : act α s = .next t) : Outward s t := by
  rcases act_cases h with ⟨_, i, _, he⟩ | ⟨_, rfl⟩ | ⟨hα, _⟩ | ⟨_, e⟩
  · exact exec_outward he
  · exact foregroundStep_outward _ s
  · exact absurd hα hr
  · exact .of_eq (congrArg (fun s => (s.trace, s.cs)) e)

/-- Settles O53: an event is appended by `emit`, and every step but reset extends the trace. -/
theorem traceOnlyGrows : Obligations.TraceOnlyGrows :=
  ⟨fun _ _ => rfl, fun _ _ _ h => (exec_outward h).trace, fun _ _ _ hr h => (act_outward hr h).trace⟩

/-! ### The ring -/

/-- The fields `ringWf` is about. -/
def State.ring (s : State) : List Segment × Word × Word × Bool := (s.slots, s.head, s.tail, s.full)

theorem ringWf_congr {K : Params} {s t : State} (h : t.ring = s.ring) (hs : ringWf K s) : ringWf K t := by
  simp only [State.ring, Prod.mk.injEq] at h
  obtain ⟨h1, h2, h3, h4⟩ := h
  simpa only [ringWf, h1, h2, h3, h4] using hs

/-- A commit keeps the ring, whatever it writes into a slot (41_ring_buffer.md R153). -/
theorem ringWf_of_commit {K : Params} {s t : State} (hs : ringWf K s)
    (hl : t.slots.length = s.slots.length) (hh : t.head = ringNext K s.head) (ht : t.tail = s.tail)
    (hf : t.full = (ringNext K s.head == s.tail)) : ringWf K t := by
  obtain ⟨hlen, _, htail, _⟩ := hs
  refine ⟨hl.trans hlen, ?_, ht ▸ htail, fun hfull => ?_⟩
  · rw [hh]; exact ringNext_lt K s.head
  · rw [hh, ht]; exact beq_iff_eq.1 (hf ▸ hfull)

/-- A discard keeps the ring, whatever it writes into a slot (41_ring_buffer.md R155). -/
theorem ringWf_of_discard {K : Params} {s t : State} (hs : ringWf K s)
    (hl : t.slots.length = s.slots.length) (hh : t.head = s.head) (ht : t.tail = ringNext K s.tail)
    (hf : t.full = false) : ringWf K t := by
  obtain ⟨hlen, hhead, _, _⟩ := hs
  refine ⟨hl.trans hlen, hh ▸ hhead, ?_, fun hfull => by simp [hf] at hfull⟩
  rw [ht]; exact ringNext_lt K s.tail

theorem stoppedBy.ring {cs : List FaultCode} {s t : State} (h : stoppedBy cs s t) : t.ring = s.ring :=
  h.unwritten State.ring fun _ _ _ => rfl

/-- CALC, RB_COMMIT, RB_DISCARD and the handler are the ring's only writers, and each keeps it. -/
theorem exec_ringWf {i : Instr} {s t : State} (h : exec i s = .next t) (hs : ringWf Config.params s) :
    ringWf Config.params t := by
  have unwritten (hw : (writtenBy i s t).ring = s.ring) : ringWf Config.params t :=
    ringWf_congr (exec_unwritten State.ring (fun _ _ _ => rfl) h hw) hs
  cases i with
  | calculate =>
    obtain rfl := Host.Outcome.next.inj h
    rcases calcCommand_inv Config.params s with hst | ⟨_, _, e⟩ | ⟨_, _, b, rest, _, e⟩
    · exact ringWf_congr hst.ring hs
    · rw [e]; exact hs
    · rw [e]; exact ringWf_of_commit hs List.length_set rfl rfl rfl
  | rbCommit =>
    obtain rfl := Host.Outcome.next.inj h
    rcases rbCommitOp_inv Config.params s with hst | ⟨_, _, _, e⟩
    · exact ringWf_congr hst.ring hs
    · rw [e]; exact ringWf_of_commit hs rfl rfl rfl rfl
  | rbDiscard =>
    obtain rfl := Host.Outcome.next.inj h
    rcases rbDiscardOp_inv Config.params s with hst | ⟨_, _, e⟩
    · exact ringWf_congr hst.ring hs
    · rw [e]; exact ringWf_of_discard hs rfl rfl rfl rfl
  | timerCompare =>
    obtain rfl := Host.Outcome.next.inj h
    rcases interruptStep_inv Config.params s with ⟨_, e⟩ | ⟨_, _, e⟩ | ⟨_, _, e⟩ | ⟨_, _, _, _, e⟩
      | ⟨_, _, _, _, evs, _, e⟩
    · rw [e]; exact hs
    · rw [e]; exact hs
    · rw [e]; exact hs
    · rw [e]; exact hs
    · rw [e]; exact ringWf_of_discard hs List.length_set rfl rfl rfl
  | _ => exact unwritten rfl

theorem resetWith_ringWf (K : Params) : ringWf K (State.resetWith K) :=
  ⟨List.length_replicate, n_pos K, n_pos K, fun _ => rfl⟩

theorem act_ringWf {α : Action} {s t : State} (h : act α s = .next t) (hs : ringWf Config.params s) :
    ringWf Config.params t := by
  rcases act_cases h with ⟨_, i, _, he⟩ | ⟨_, rfl⟩ | ⟨_, rfl⟩ | ⟨_, e⟩
  · exact exec_ringWf he hs
  · exact ringWf_congr (congrArg State.ring (foregroundStep_frame _ s)) hs
  · exact resetWith_ringWf Config.params
  · exact ringWf_congr (congrArg State.ring e) hs

/-- Settles O55: the ring's writers keep it, and no other step touches it. -/
theorem stepKeepsRing : Obligations.StepKeepsRing := by
  intro s t hs h
  rcases step_cases h with ⟨_, i, he⟩ | ⟨_, α, rest, n, ha⟩
  · exact exec_ringWf he hs
  · exact act_ringWf ha hs

/-! ### The fault record -/

/-- The fields `faultsWf` is about. -/
def State.faultRecord (s : State) : List FaultCode × Byte := (s.faults, s.firstFault)

theorem faultsWf_congr {s t : State} (h : t.faultRecord = s.faultRecord) (hs : faultsWf s) : faultsWf t := by
  obtain ⟨h1, h2⟩ := Prod.mk.inj h
  simpa only [faultsWf, h1, h2] using hs

/-- A fault raised where none is recorded stands alone, with its code (60_exceptions.md R271). -/
theorem faultsWf_of_onlyFault {cs : List FaultCode} {s t : State} (hs : faultsWf s)
    (h : onlyFault cs s t) : faultsWf t := by
  obtain ⟨hf, c, _, rfl⟩ := h
  rcases hs with ⟨_, hz⟩ | ⟨d, hd, _⟩
  · exact .inr ⟨c, rfl, if_pos hz⟩
  · simp [hf] at hd

/-- An instruction writes the fault record by its fault alone. -/
theorem exec_faultsWf {i : Instr} {s t : State} (h : exec i s = .next t) (hs : faultsWf s) : faultsWf t := by
  rcases exec_frame h with e | ho
  · exact faultsWf_congr ((congrArg State.faultRecord e).trans (by cases i <;> rfl)) hs
  · exact faultsWf_of_onlyFault hs ho

theorem act_faultsWf {α : Action} {s t : State} (h : act α s = .next t) (hs : faultsWf s) : faultsWf t := by
  rcases act_frame h with e | ho | ⟨_, i, _, _, _, he⟩
  · cases α with
    | reset =>
      obtain rfl := Host.Outcome.next.inj h
      exact .inl ⟨rfl, rfl⟩
    | hostWrite =>
      rw [writtenByAgent_hostWrite] at e
      exact faultsWf_congr (congrArg State.faultRecord e) hs
    | _ => exact faultsWf_congr (congrArg State.faultRecord e) hs
  · exact faultsWf_of_onlyFault hs ho
  · exact exec_faultsWf he hs

/-- Settles O56: outside reset the record changes by `onlyFault` alone, which asks for an empty one. -/
theorem stepKeepsFaultRecord : Obligations.StepKeepsFaultRecord := by
  intro s t hs h
  rcases step_cases h with ⟨_, i, he⟩ | ⟨_, α, rest, n, ha⟩
  · exact exec_faultsWf he hs
  · exact act_faultsWf ha hs

/-! ### Between steps -/

/-- The port and the fields of the interrupt and of the critical sections (10_state.md R36, R37). -/
def State.controls (s : State) : Option StagedOp × Bool × Nat × Bool := (s.opPort, s.inIsr, s.csDepth, s.gie)

/-- Of the instructions that the agents run none writes the controls. -/
theorem exec_controls {i : Instr} (hi : i.opcode.hostIssuable = true ∨ i = .timerCompare) {s t : State}
    (h : exec i s = .next t) : t.controls = s.controls := by
  refine exec_unwritten State.controls (fun _ _ _ => rfl) h ?_
  cases i with
  | csEnter | csExit => simp [Instr.opcode, Opcode.hostIssuable] at hi
  | _ => rfl

theorem act_betweenSteps {α : Action} {s t : State} (h : act α s = .next t) (hp : s.opPort = none)
    (hs : betweenSteps s) : t.opPort = none ∧ betweenSteps t := by
  obtain ⟨hcs, hisr, hdepth, hgie⟩ := hs
  have kept (hr : α ≠ .reset) (hc : t.controls = s.controls) : t.opPort = none ∧ betweenSteps t := by
    simp only [State.controls, Prod.mk.injEq] at hc
    obtain ⟨h1, h2, h3, h4⟩ := hc
    exact ⟨h1.trans hp, (act_outward hr h).cs hcs, h2.trans hisr, h3.trans hdepth, h4.trans hgie⟩
  rcases act_cases h with ⟨hr, i, hi, he⟩ | ⟨rfl, e⟩ | ⟨_, rfl⟩ | ⟨hr, e⟩
  · exact kept hr (exec_controls hi he)
  · exact kept nofun (by rw [e, foregroundStep_frame]; rfl)
  · exact ⟨rfl, rfl, rfl, rfl, rfl⟩
  · exact kept hr (by rw [e]; rfl)

/-- Settles O57: the agents leave the controls alone, and every frame releases its select line. -/
theorem stepKeepsBetweenSteps : Obligations.StepKeepsBetweenSteps := by
  intro s t hp hs h
  rcases step_cases h with ⟨hn, _⟩ | ⟨_, α, rest, n, ha⟩
  · exact absurd hp hn
  · exact act_betweenSteps ha hp hs

end Sys2Proof.Machine
end

section
/-! SUPPORT. The sequencing state, kept by every step of the agents; the state after reset; the bits of
STATUS. -/

namespace Sys2Proof.Machine

/-! ### The sequencing state -/

/-- The fields `sequencingWf` is about. -/
def State.sequencing (s : State) : Option Opcode × HomePhase × Option Axis × Option HomeParams
    × Option EndCall × Option ReadPend :=
  (s.fgOp, s.homePhase, s.homeAxis, s.homeParams, s.endCall, s.readPend)

theorem sequencingWf_congr {K : Params} {s t : State} (h : t.sequencing = s.sequencing)
    (hs : sequencingWf K s) : sequencingWf K t := by
  simp only [State.sequencing, Prod.mk.injEq] at h
  obtain ⟨h1, h2, h3, h4, h5, h6⟩ := h
  simpa only [sequencingWf, h1, h2, h3, h4, h5, h6] using hs

/-- Where no command runs, no field of one holds anything. -/
theorem sequencingWf_idle {K : Params} {s : State} (hs : sequencingWf K s) (ho : s.fgOp = none) :
    s.homePhase = .idle ∧ s.homeAxis = none ∧ s.homeParams = none ∧ s.endCall = none
    ∧ s.readPend = none := by
  rcases hs with ⟨_, h⟩ | ⟨_, _, h, _⟩ | ⟨_, h, _⟩
  · exact h
  · simp [ho] at h
  · simp [ho] at h

/-- Where HOME runs, it has its operands, and an open read is its poll's. -/
theorem sequencingWf_home {K : Params} {s : State} {a : Axis} (hs : sequencingWf K s)
    (ho : s.fgOp = some .home) (ha : s.homeAxis = some a) :
    s.endCall = none ∧ s.homePhase.onPath (K.stallHoming.get a) = true
    ∧ (s.readPend = none
      ∨ (s.readPend = some ⟨a, K.devreg .rampStat⟩ ∧ s.homePhase.polls = true)) := by
  rcases hs with ⟨h, _⟩ | ⟨b, _, _, hb, _, h⟩ | ⟨_, h, _⟩
  · simp [ho] at h
  · obtain rfl : b = a := Option.some.inj (hb.symm.trans ha)
    exact h
  · simp [ho] at h

/-- Where ENDSTOP runs, HOME's fields hold nothing. -/
theorem sequencingWf_endstop {K : Params} {s : State} (hs : sequencingWf K s)
    (ho : s.fgOp = some .endstop) : s.homePhase = .idle ∧ s.homeAxis = none ∧ s.homeParams = none := by
  rcases hs with ⟨h, _⟩ | ⟨_, _, h, _⟩ | ⟨_, _, h1, h2, h3, _⟩
  · simp [ho] at h
  · simp [ho] at h
  · exact ⟨h1, h2, h3⟩

/-- The first phase is on the path of its sub-protocol (44_homing.md R221). -/
theorem firstPhase_onPath (K : Params) (a : Axis) :
    (firstPhase K a).onPath (K.stallHoming.get a) = true := by
  cases h : K.stallHoming.get a <;> simp [firstPhase, h, HomePhase.onPath]

/-- A phase that writes polls nothing, and leads along the path (44_homing.md R220). -/
theorem homeWriteRow_onPath {K : Params} {a : Axis} {p : HomeParams} {ph next : HomePhase} {r : DevReg}
    {v : Word} {stall : Bool} (h : homeWriteRow K a p ph = some (r, v, next)) (hp : ph.onPath stall = true) :
    ph.polls = false ∧ next.onPath stall = true := by
  cases ph with
  | idle | swEnable | seekPoll | seekYield | retPoll | retYield | done => cases h
  | swArm | stMode | swPosmode | stSmoothOn => cases h; exact ⟨rfl, rfl⟩
  | _ => cases h; exact ⟨rfl, hp⟩

/-- As `homeWriteRow_onPath`, for the phases of one event. -/
theorem homeEventRow_onPath {a : Axis} {ph next : HomePhase} {e : Event} {stall : Bool}
    (h : homeEventRow a ph = some (e, next)) (hp : ph.onPath stall = true) :
    ph.polls = false ∧ next.onPath stall = true := by
  cases ph with
  | swEnable | seekYield | retYield => cases h; exact ⟨rfl, hp⟩
  | _ => cases h

/-- Both ways on from a poll are on the path. -/
theorem homePollRow_onPath {K : Params} {a : Axis} {ph stopped moving : HomePhase}
    (h : homePollRow K a ph = some (stopped, moving)) :
    ph.polls = true ∧ stopped.onPath (K.stallHoming.get a) = true
    ∧ moving.onPath (K.stallHoming.get a) = true := by
  cases ph with
  | seekPoll => cases h; exact ⟨rfl, rfl, rfl⟩
  | retPoll =>
    cases h
    refine ⟨rfl, ?_, rfl⟩
    cases K.stallHoming.get a <;> rfl
  | _ => cases h

theorem homeStep_sequencingWf (K : Params) {a : Axis} {p : HomeParams} {s : State}
    (hs : sequencingWf K s) (ho : s.fgOp = some .home) (ha : s.homeAxis = some a)
    (hp : s.homeParams = some p) : sequencingWf K (homeStep K a p s) := by
  obtain ⟨hend, hpath, hread⟩ := sequencingWf_home hs ho ha
  have closed (h : s.homePhase.polls = false) : s.readPend = none := by
    rcases hread with hn | ⟨_, hpolls⟩
    · exact hn
    · simp [h] at hpolls
  have moved {t : State} {next : HomePhase} (ht : t.sequencing = (toPhase next s).sequencing)
      (hnext : next.onPath (K.stallHoming.get a) = true) (hclosed : s.readPend = none) :
      sequencingWf K t :=
    sequencingWf_congr ht (.inr (.inl ⟨a, p, ho, ha, hp, hend, hnext, .inl hclosed⟩))
  rcases homeStep_cases K a p s with ⟨_, e⟩ | ⟨r, v, next, hrow, e⟩ | ⟨ev, next, hrow, e⟩
    | ⟨st, mv, hrow, e⟩ | ⟨hdone, e⟩ <;> rw [e]
  · exact hs
  · obtain ⟨hpolls, hnext⟩ := homeWriteRow_onPath hrow hpath
    refine moved ?_ hnext (closed hpolls)
    rw [homeSetPos_eq, devWrite_eq]
    split <;> rfl
  · obtain ⟨hpolls, hnext⟩ := homeEventRow_onPath hrow hpath
    exact moved rfl hnext (closed hpolls)
  · obtain ⟨hpolls, hst, hmv⟩ := homePollRow_onPath hrow
    rw [homePoll_eq, busReadSecond_eq, busReadFirst_eq]
    split
    · refine .inr (.inl ⟨a, p, ho, ha, hp, hend, ?_, .inl rfl⟩)
      rw [toPhase_homePhase]
      split
      · exact hst
      · exact hmv
    · exact .inr (.inl ⟨a, p, ho, ha, hp, hend, hpath, .inr ⟨rfl, hpolls⟩⟩)
  · rw [homeFinish, homeSetPos_eq]
    exact .inl ⟨rfl, rfl, rfl, rfl, hend, closed (by rw [hdone]; rfl)⟩

theorem endstopStep_sequencingWf (K : Params) {c : EndCall} {s : State} (hs : sequencingWf K s)
    (ho : s.fgOp = some .endstop) (hc : s.endCall = some c) : sequencingWf K (endstopStep K c s) := by
  obtain ⟨hphase, haxis, hparams⟩ := sequencingWf_endstop hs ho
  rw [endstopStep_eq, busReadSecond_eq, busReadFirst_eq]
  split
  · exact .inl ⟨rfl, hphase, haxis, hparams, rfl, rfl⟩
  · exact .inr (.inr ⟨c, ho, hphase, haxis, hparams, hc, .inr rfl⟩)

theorem foregroundStep_sequencingWf (K : Params) {s : State} (hs : sequencingWf K s) :
    sequencingWf K (foregroundStep K s) := by
  rcases foregroundStep_inv K s with e | ⟨_, ho, p, hp, _⟩ | ⟨_, ho, a, p, ha, hp, e⟩ | ⟨_, ho, c, hc, e⟩
  · rw [e]; exact hs
  · obtain ⟨_, _, _, _, hn⟩ := sequencingWf_idle hs ho
    simp [hn] at hp
  · rw [e]; exact homeStep_sequencingWf K hs ho ha hp
  · rw [e]; exact endstopStep_sequencingWf K hs ho hc

theorem stoppedBy.sequencing {cs : List FaultCode} {s t : State} (h : stoppedBy cs s t) :
    t.sequencing = s.sequencing := h.unwritten State.sequencing fun _ _ _ => rfl

/-- Of the instructions that the agents run only HOME and ENDSTOP write the sequencing state, each where no
command runs. -/
theorem exec_sequencingWf {i : Instr} (hi : i.opcode.hostIssuable = true ∨ i = .timerCompare)
    {s t : State} (h : exec i s = .next t) (hs : sequencingWf Config.params s) :
    sequencingWf Config.params t := by
  have unwritten (hw : (writtenBy i s t).sequencing = s.sequencing) : sequencingWf Config.params t :=
    sequencingWf_congr (exec_unwritten State.sequencing (fun _ _ _ => rfl) h hw) hs
  cases i with
  | home a =>
    obtain rfl := Host.Outcome.next.inj h
    rcases homeCommand_inv Config.params a s with hst | ⟨_, ho, p, e⟩
    · exact sequencingWf_congr hst.sequencing hs
    · obtain ⟨_, _, _, hend, _⟩ := sequencingWf_idle hs ho
      rw [e]
      exact .inr (.inl ⟨a, p, rfl, rfl, rfl, hend, firstPhase_onPath _ a, .inl rfl⟩)
  | endstop a =>
    obtain rfl := Host.Outcome.next.inj h
    rcases endstopCommand_inv a s with hst | ⟨_, ho, e⟩
    · exact sequencingWf_congr hst.sequencing hs
    · obtain ⟨hphase, haxis, hparams, _, _⟩ := sequencingWf_idle hs ho
      rw [e]
      exact .inr (.inr ⟨_, rfl, hphase, haxis, hparams, rfl, .inl rfl⟩)
  | busRead => simp [Instr.opcode, Opcode.hostIssuable] at hi
  | _ => exact unwritten rfl

theorem resetWith_sequencingWf (K : Params) : sequencingWf K (State.resetWith K) :=
  .inl ⟨rfl, rfl, rfl, rfl, rfl, rfl⟩

theorem act_sequencingWf {α : Action} {s t : State} (h : act α s = .next t)
    (hs : sequencingWf Config.params s) : sequencingWf Config.params t := by
  rcases act_cases h with ⟨_, i, hi, he⟩ | ⟨_, rfl⟩ | ⟨_, rfl⟩ | ⟨_, e⟩
  · exact exec_sequencingWf hi he hs
  · exact foregroundStep_sequencingWf _ hs
  · exact resetWith_sequencingWf Config.params
  · exact sequencingWf_congr (congrArg State.sequencing e) hs

/-- Settles O59: HOME and ENDSTOP start where no command runs, their steps follow the tables of 44_homing.md
R220 to their end, and no other step of the agents touches the sequencing state. -/
theorem stepKeepsSequencing : Obligations.StepKeepsSequencing := by
  intro s t hp hs h
  rcases step_cases h with ⟨hn, _⟩ | ⟨_, α, rest, n, ha⟩
  · exact absurd hp hn
  · exact act_sequencingWf ha hs

/-! ### Reset -/

/-- Settles O6: each value read off `State.resetWith`. -/
theorem resetValues : Obligations.ResetValues := by
  have slots : ∀ g ∈ State.reset.slots, g.ready = false ∧ g.zflag = false := by
    intro g hg
    rw [List.eq_of_mem_replicate hg]
    exact ⟨rfl, rfl⟩
  refine ⟨rfl, rfl, rfl, rfl, rfl, rfl, rfl, List.length_replicate, slots, rfl, rfl, rfl, rfl, ?_, ?_, rfl,
    rfl, rfl, rfl, rfl, rfl, rfl, rfl, rfl, rfl, rfl, ?_, rfl⟩
  · exact fun a => ⟨PerAxis.get_const _ a, PerAxis.get_const _ a⟩
  · exact fun a => ⟨PerAxis.get_const _ a, PerAxis.get_const _ a, PerAxis.get_const _ a,
      PerAxis.get_const _ a, PerAxis.get_const _ a⟩
  · exact fun a => ⟨PerAxis.get_const _ a, PerAxis.get_const _ a⟩

/-- Settles O8: the ring is empty, no fault, no command and no section is recorded, and the timer is off. -/
theorem resetMeetsInvariants : Obligations.ResetMeetsInvariants :=
  ⟨resetWith_ringWf _, .inl ⟨rfl, rfl⟩, ⟨rfl, rfl, rfl, rfl⟩, ⟨rfl, rfl, rfl⟩, resetWith_sequencingWf _,
    nofun⟩

/-! ### STATUS -/

theorem getLsbD_bit (b : Bool) : (bit b).getLsbD 0 = b := by cases b <;> rfl

/-- The word that `State.status` puts together, bit by bit (10_state.md R23). -/
theorem status_getLsbD (s : State) (k : Nat) : s.status.getLsbD k =
    if k = 0 then s.busy else if k = 1 then s.faulted else if k = 2 then s.initDone
    else if 8 ≤ k ∧ k < 16 then s.firstFault.getLsbD (k - 8) else false := by
  simp only [State.status, BitVec.getLsbD_append, BitVec.getLsbD_zero]
  obtain rfl | rfl | rfl | hlow | hfault | hhigh :
      k = 0 ∨ k = 1 ∨ k = 2 ∨ (3 ≤ k ∧ k < 8) ∨ (8 ≤ k ∧ k < 16) ∨ 16 ≤ k := by omega
  · exact getLsbD_bit _
  · exact getLsbD_bit _
  · exact getLsbD_bit _
  · grind
  · grind
  · grind

/-- Settles O13: each bit falls into one field of the word that `State.status` puts together. -/
theorem statusBits : Obligations.StatusBits := by
  intro s
  refine ⟨?_, ?_, ?_, ?_, fun k hk => ?_⟩
  · rw [status_getLsbD, if_pos rfl]; simp [State.busy]
  · rw [status_getLsbD]; exact faulted_iff s
  · rw [status_getLsbD]; rfl
  · apply BitVec.eq_of_getLsbD_eq
    intro j hj
    rw [BitVec.getLsbD_extractLsb', status_getLsbD]
    grind
  · rw [status_getLsbD]
    grind

end Sys2Proof.Machine
end

section
/-! SUPPORT. The host's register window (20_memory.md R72, R73), and the two orders of CALC and the handler
(42_segment_calculator.md R170, 43_dispatch_interrupt.md R200). -/

namespace Sys2Proof.Machine

/-! ### The register window -/

theorem legalAccess_iff (addr n : Nat) :
    legalAccess addr n = true ↔ n = 4 ∧ addr ∈ [0x00, 0x04, 0x08, 0x0C, 0x10] := by
  simp [legalAccess, or_assoc]

theorem legalAccess_eq_false {addr n : Nat} (h : ¬ (n = 4 ∧ addr ∈ [0x00, 0x04, 0x08, 0x0C, 0x10])) :
    legalAccess addr n = false :=
  Bool.eq_false_iff.2 (mt (legalAccess_iff addr n).1 h)

theorem illegalAccess_faultFree {s : State} (h : faultFree s) :
    illegalAccess s = withFault .illegalAccess s := unitStep_error h rfl

theorem hostRead_illegal {addr n : Nat} {s : State} (hl : legalAccess addr n = false) (h : faultFree s) :
    hostRead addr n s = withFault .illegalAccess s := by
  rw [hostRead, hl, ← illegalAccess_faultFree h]; rfl

theorem hostWrite_illegal {addr n : Nat} (v : Word) {s : State} (hl : legalAccess addr n = false)
    (h : faultFree s) : hostWrite addr n v s = .next (withFault .illegalAccess s) := by
  rw [hostWrite, hl, ← illegalAccess_faultFree h]; rfl

/-- A word that decodes to a host command is issued (30_encoding.md R104). -/
theorem issueCommand_admitted {w : Word} {i : Instr} (hd : decode w 0#32 = .ok i)
    (hi : i.opcode.hostIssuable = true) (s : State) : issueCommand w s = exec i s := by
  simp [issueCommand, hd, hi]

/-- Settles O12: each legal access evaluates to its row of 20_memory.md R72; the others are those that
`legalAccess` rejects. -/
theorem registerWindow : Obligations.RegisterWindow := by
  intro s
  refine ⟨rfl, rfl, rfl, rfl, rfl, fun _ => rfl, fun _ => ⟨rfl, rfl, rfl⟩, ?_, ?_⟩
  · exact fun w i hd hi => issueCommand_admitted hd hi s
  · intro addr n hn hs
    have hl := legalAccess_eq_false hn
    exact ⟨congrArg _ (hostRead_illegal hl hs), fun v => hostWrite_illegal v hl hs⟩

/-! ### CALC and the handler in either order -/

/-- On the indices of the ring the successor is injective (41_ring_buffer.md R150). -/
theorem ringNext_inj {K : Params} {i j : Word} (hi : i.toNat < K.n.toNat) (hj : j.toNat < K.n.toNat)
    (h : ringNext K i = ringNext K j) : i = j := by
  have hmod : (i.toNat + 1) % K.n.toNat = (j.toNat + 1) % K.n.toNat := by
    simpa only [ringNext_toNat] using congrArg BitVec.toNat h
  exact BitVec.eq_of_toNat_eq ((Nat.ModEq.add_right_cancel' 1 hmod).eq_of_lt_of_lt hi hj)

/-- What CALC makes of `s` where a slot is free and `b`, not malformed, stands before the blocks `rest`
(42_segment_calculator.md R170). -/
def afterCalc (K : Params) (b : Block) (rest : List Block) (s : State) : State :=
  { s with
    slots := s.slots.set s.head.toNat (buildSegment K s b)
    pos := posAfter b s
    snap := (buildSegment K s b).snapshot
    head := ringNext K s.head
    full := ringNext K s.head == s.tail
    prodSlot := none
    plan := rest
    trace := s.trace ++ [.planDiscard] }

theorem calcCommand_good (K : Params) {s : State} {b : Block} {rest : List Block} (ha : acceptsCommand s)
    (hf : s.full = false) (hp : s.plan = b :: rest) (hb : ¬ (Block.moves b = true ∧ b.eventCount = 0#32)) :
    calcCommand K s = afterCalc K b rest s :=
  hostCommand_ok ha (calcBody_good K s b rest hf hp hb)

theorem calcCommand_noBlock (K : Params) {s : State} (ha : acceptsCommand s) (hp : s.plan = []) :
    calcCommand K s = { s with prodSlot := none } :=
  hostCommand_ok ha (calcBody_noop K s (.inr hp))

/-- A commit to a ring that holds a segment leaves the oldest one where it is (41_ring_buffer.md R153). -/
theorem afterCalc_slot_tail (K : Params) (b : Block) (rest : List Block) {s : State} (hne : s.head ≠ s.tail) :
    (afterCalc K b rest s).slot s.tail = s.slot s.tail := by
  have hne' : s.head.toNat ≠ s.tail.toNat := fun h => hne (BitVec.eq_of_toNat_eq h)
  simp [State.slot, afterCalc, List.getD, List.getElem?_set_ne hne']

/-- After a commit the ring is not empty (41_ring_buffer.md R153, R154). -/
theorem afterCalc_ringEmpty (K : Params) (b : Block) (rest : List Block) (s : State) :
    (afterCalc K b rest s).ringEmpty = false := by
  simp [State.ringEmpty, afterCalc]

theorem dispatching_iff (s : State) : s.handlerState = .dispatching ↔
    s.countdown = 0#32 ∧ s.ringEmpty = false ∧ (s.slot s.tail).ready = true := by
  rcases handlerState_cases s with ⟨hc, h⟩ | ⟨_, hr, h⟩ | ⟨hc, he, hr, h⟩
  · simp [h, hc]
  · rcases hr with hr | hr <;> simp [h, hr]
  · simp [h, hc, he, hr]

/-- What the handler makes of `s` in state Waiting (43_dispatch_interrupt.md R201). -/
def afterRearm (s : State) : State :=
  { s with
    tmr := { s.tmr with pending := false, ocr := (umin s.countdown Config.chunkMax).truncate 16 }
    countdown := s.countdown - umin s.countdown Config.chunkMax
    trace := s.trace ++ [.timerSet ((umin s.countdown Config.chunkMax).truncate 16)] }

/-- What the handler makes of `s` in state Dispatching where no bus command runs, `evs` being the events of its
frames (43_dispatch_interrupt.md R203 to R205). -/
def afterDispatch (K : Params) (evs : List Event) (s : State) : State :=
  { s with
    tmr := { s.tmr with pending := false }
    countdown := (s.slot s.tail).duration
    slots := s.slots.set s.tail.toNat { s.slot s.tail with ready := false }
    tail := ringNext K s.tail
    full := false
    cs := csAfter (dispatchWrites (s.slot s.tail)) s.cs
    devLatch := latchAfter K (dispatchWrites (s.slot s.tail)) s.devLatch
    fresh := s.fresh + evs.length
    trace := s.trace ++ evs }

theorem interruptStep_afterRearm (K : Params) {s : State} (ht : takeable s) (hc : s.countdown ≠ 0#32) :
    interruptStep K s = afterRearm s := interruptStep_waiting K s ht hc

theorem interruptStep_afterDispatch (K : Params) {s : State} (ht : takeable s)
    (hs : s.handlerState = .dispatching) (ho : s.fgOp = none) :
    ∃ evs : List Event, evs.length = (dispatchSent K (s.slot s.tail)).length
      ∧ interruptStep K s = afterDispatch K evs s := by
  obtain ⟨evs, hsent, e⟩ := interruptStep_dispatch K s ht hs (by simp [State.busy, ho])
  exact ⟨evs, by rw [← hsent, List.length_map], e⟩

section
variable (K : Params) {s : State} (ha : acceptsCommand s) (ht : takeable s)
include ha ht

/-- Without a block CALC clears the reservation alone, which the handler neither reads nor writes. -/
theorem calc_noBlock_comm (hp : s.plan = []) (hs : s.handlerState ≠ .idle) :
    { interruptStep K (calcCommand K s) with trace := [] }
      = { calcCommand K (interruptStep K s) with trace := [] } := by
  rw [calcCommand_noBlock K ha hp]
  rcases handlerState_cases s with ⟨hc, _⟩ | ⟨_, _, h⟩ | ⟨_, _, _, h⟩
  · rw [interruptStep_afterRearm K ht hc, calcCommand_noBlock K (s := afterRearm s) ha hp,
      interruptStep_afterRearm K (s := { s with prodSlot := none }) ht hc]
    rfl
  · exact absurd h hs
  · obtain ⟨evs, hl, e⟩ := interruptStep_afterDispatch K ht h ha.2.1
    obtain ⟨evs', hl', e'⟩ := interruptStep_afterDispatch K (s := { s with prodSlot := none }) ht h ha.2.1
    rw [e, e', calcCommand_noBlock K (s := afterDispatch K evs s) ha hp]
    simp only [afterDispatch, hl, hl']
    rfl

/-- In state Waiting the handler writes the timer and the countdown, which CALC does not read. -/
theorem calc_waiting_comm {b : Block} {rest : List Block} (hf : s.full = false) (hp : s.plan = b :: rest)
    (hb : ¬ (Block.moves b = true ∧ b.eventCount = 0#32)) (hc : s.countdown ≠ 0#32) :
    { interruptStep K (calcCommand K s) with trace := [] }
      = { calcCommand K (interruptStep K s) with trace := [] } := by
  rw [calcCommand_good K ha hf hp hb, interruptStep_afterRearm K ht hc,
    interruptStep_afterRearm K (s := afterCalc K b rest s) ht hc,
    calcCommand_good K (s := afterRearm s) ha hf hp hb]
  rfl

/-- In state Dispatching CALC fills the slot at the head and the handler empties the one at the tail; these
differ, and neither order leaves the ring full. -/
theorem calc_dispatching_comm {b : Block} {rest : List Block} (hw : ringWf K s) (hf : s.full = false)
    (hp : s.plan = b :: rest) (hb : ¬ (Block.moves b = true ∧ b.eventCount = 0#32))
    (hs : s.handlerState = .dispatching) :
    { interruptStep K (calcCommand K s) with trace := [] }
      = { calcCommand K (interruptStep K s) with trace := [] } := by
  have ho : s.fgOp = none := ha.2.1
  obtain ⟨_, hhead, htail, _⟩ := hw
  obtain ⟨hc, he, hr⟩ := (dispatching_iff s).1 hs
  have hne : s.head ≠ s.tail := by simpa [hf] using (ringEmpty_false_iff s).1 he
  have hslot : (afterCalc K b rest s).slot (afterCalc K b rest s).tail = s.slot s.tail :=
    afterCalc_slot_tail K b rest hne
  have hs' : (afterCalc K b rest s).handlerState = .dispatching :=
    (dispatching_iff _).2 ⟨hc, afterCalc_ringEmpty K b rest s, hslot ▸ hr⟩
  obtain ⟨evs, hl, e⟩ := interruptStep_afterDispatch K ht hs ho
  obtain ⟨evs', hl', e'⟩ := interruptStep_afterDispatch K (s := afterCalc K b rest s) ht hs' ho
  have hlen : evs'.length = evs.length := by rw [hl, hl', hslot]
  have hslots (g g' : Segment) : (s.slots.set s.head.toNat g).set s.tail.toNat g'
      = (s.slots.set s.tail.toNat g').set s.head.toNat g :=
    List.set_comm g g' fun h => hne (BitVec.eq_of_toNat_eq h)
  have hfull : (ringNext K s.head == ringNext K s.tail) = false :=
    beq_eq_false_iff_ne.2 fun h => hne (ringNext_inj hhead htail h)
  rw [calcCommand_good K ha hf hp hb, e', e,
    calcCommand_good K (s := afterDispatch K evs s) ha rfl hp hb]
  simp only [afterDispatch, hslot, hlen]
  simp only [afterCalc, hslots, hfull]
  rfl

end

/-- Settles O45: the handler is Waiting or Dispatching, and CALC has a block or none. -/
theorem calcCommutesWithHandler : Obligations.CalcCommutesWithHandler := by
  intro K s ha ht hw hf hs hgood
  cases hp : s.plan with
  | nil => exact calc_noBlock_comm K ha ht hp hs
  | cons b rest =>
    have hb : ¬ (Block.moves b = true ∧ b.eventCount = 0#32) := fun ⟨hm, hz⟩ =>
      hgood b (by rw [hp]; rfl) hm hz
    rcases handlerState_cases s with ⟨hc, _⟩ | ⟨_, _, h⟩ | ⟨_, _, _, h⟩
    · exact calc_waiting_comm K ha ht hf hp hb hc
    · exact absurd h hs
    · exact calc_dispatching_comm K ha ht hw hf hp hb h

end Sys2Proof.Machine
end

section
/-! SUPPORT. The command word: encoder and decoder are inverse to each other, field by field (30_encoding.md
R100, R103, R105). -/

namespace Sys2Proof

/-! ### The fields' codes -/

/-- The codes of 30_encoding.md R103 are pairwise different: a code finds its own row, and no other. -/
theorem Opcode.ofCode_eq_some_iff {c : Byte} {o : Opcode} : Opcode.ofCode c = some o ↔ c = o.code := by
  constructor
  · intro h
    exact (beq_iff_eq.1 (List.find?_some h :)).symm
  · rintro rfl
    cases o <;> rfl

@[simp] theorem Axis.ofCode_code (a : Axis) : Axis.ofCode a.code = a := by cases a <;> rfl

@[simp] theorem Axis.code_ofCode (c : BitVec 2) : (Axis.ofCode c).code = c := by
  revert c; decide

/-- A register address that fits `REG` comes back from that field (30_encoding.md R100). -/
theorem RegAddr.zeroExtend_truncate {r : RegAddr} (h : RegAddr.fits r = true) :
    (r.truncate 7).zeroExtend 8 = r := by
  have hr : r.toNat < 128 := by simpa [RegAddr.fits] using h
  apply BitVec.eq_of_toNat_eq
  simp only [BitVec.truncate_eq_setWidth, BitVec.toNat_setWidth]
  omega

theorem RegAddr.fits_zeroExtend (r : BitVec 7) : RegAddr.fits (r.zeroExtend 8) = true := by
  have := r.isLt
  simp only [RegAddr.fits, BitVec.truncate_eq_setWidth, BitVec.toNat_setWidth, decide_eq_true_eq]
  omega

/-! ### The instruction of an operation and its operands -/

section
variable (o : Opcode) (a : Axis) (r : RegAddr) (v : Word)

@[simp] theorem Opcode.instr_opcode : (o.instr a r v).opcode = o := by cases o <;> rfl

theorem Opcode.instr_axBits : (o.instr a r v).axBits = if o.usesAxis then a.code else 0#2 := by
  cases o <;> rfl

theorem Opcode.instr_regBits : (o.instr a r v).regBits = if o.usesReg then r.truncate 7 else 0#7 := by
  cases o <;> rfl

/-- The operation's instruction is well formed where the register fits (30_encoding.md R105). -/
theorem Opcode.instr_wellFormed (h : RegAddr.fits r = true) : (o.instr a r v).wellFormed = true := by
  cases o
  case busWrite | busRead => exact h
  all_goals rfl

theorem Opcode.instr_dataOperand (h : o = .busWrite) : (o.instr a r v).dataOperand = v := by
  subst h; rfl

end

/-- A well-formed instruction is the one of its operation and of the operands in its fields. -/
theorem Instr.instr_fields {i : Instr} (h : i.wellFormed = true) :
    i.opcode.instr (Axis.ofCode i.axBits) (i.regBits.zeroExtend 8) i.dataOperand = i := by
  cases i
  case home a | setpos a | getpos a | endstop a => cases a <;> rfl
  case busWrite a r v =>
    simp only [Instr.opcode, Opcode.instr, Instr.axBits, Instr.regBits, Instr.dataOperand,
      Axis.ofCode_code, RegAddr.zeroExtend_truncate h]
  case busRead a r =>
    simp only [Instr.opcode, Opcode.instr, Instr.axBits, Instr.regBits, Axis.ofCode_code,
      RegAddr.zeroExtend_truncate h]
  all_goals rfl

/-- The fields of every instruction's command word (30_encoding.md R100, R103). -/
theorem encodedFields (i : Instr) : Laws.EncodedFields.Statement i := by
  cases i
  case init => exact Laws.EncodedFields.init
  case calculate => exact Laws.EncodedFields.calculate
  case home a => exact Laws.EncodedFields.home a
  case setpos a => exact Laws.EncodedFields.setpos a
  case getpos a => exact Laws.EncodedFields.getpos a
  case rbCount => exact Laws.EncodedFields.rbCount
  case endstop a => exact Laws.EncodedFields.endstop a
  case busWrite a r v => exact Laws.EncodedFields.busWrite a r v
  case busRead a r => exact Laws.EncodedFields.busRead a r
  case rbTryEnqueue => exact Laws.EncodedFields.rbTryEnqueue
  case rbCommit => exact Laws.EncodedFields.rbCommit
  case rbPeekReady => exact Laws.EncodedFields.rbPeekReady
  case rbDiscard => exact Laws.EncodedFields.rbDiscard
  case csEnter => exact Laws.EncodedFields.csEnter
  case csExit => exact Laws.EncodedFields.csExit
  case idleYield => exact Laws.EncodedFields.idleYield
  case timerCompare => exact Laws.EncodedFields.timerCompare
  case planGet => exact Laws.EncodedFields.planGet
  case planDiscard => exact Laws.EncodedFields.planDiscard

/-! ### The decoder -/

/-- The checks of 30_encoding.md R104 that look at the word alone, for operation `o`. -/
structure LegalFor (o : Opcode) (w : Word) : Prop where
  opc : opcField w = o.code
  rsv : rsvField w = 0#15
  reg : o.usesReg = false → regField w = 0#7
  ax : o.usesAxis = false → axField w = 0#2

/-- A word decodes exactly where it passes the checks for an operation, and then to that operation with the
operands in its fields (30_encoding.md R104, R105, R107). -/
theorem decode_eq_ok_iff {w v : Word} {i : Instr} : decode w v = .ok i ↔
    ∃ o, LegalFor o w ∧ i = o.instr (Axis.ofCode (axField w)) ((regField w).zeroExtend 8) v := by
  constructor
  · intro h
    unfold decode at h
    split at h
    · cases h
    · rename_i o ho
      split_ifs at h with hrsv hreg hax
      refine ⟨o, ⟨Opcode.ofCode_eq_some_iff.1 ho, not_not.1 hrsv, ?_, ?_⟩, (Except.ok.inj h).symm⟩
      · exact fun hu => not_not.1 fun hne => hreg ⟨hu, hne⟩
      · exact fun hu => not_not.1 fun hne => hax ⟨hu, hne⟩
  · rintro ⟨o, ⟨hopc, hrsv, hreg, hax⟩, rfl⟩
    simp only [decode, Opcode.ofCode_eq_some_iff.2 hopc]
    rw [if_neg (not_not.2 hrsv), if_neg fun h => h.2 (hreg h.1), if_neg fun h => h.2 (hax h.1)]

/-- The command word of an instruction passes the checks for its operation. -/
theorem encode_legal (i : Instr) : LegalFor i.opcode (encode i) := by
  obtain ⟨hopc, _, hrsv, _, hax, hreg⟩ := encodedFields i
  exact ⟨hopc, hrsv, hreg, hax⟩

/-- A word that passes the checks for an operation is the command word of that operation with the operands in
its fields: an unused field holds 0, as in the encoding. -/
theorem encode_of_legal {o : Opcode} {w : Word} (h : LegalFor o w) (v : Word) :
    encode (o.instr (Axis.ofCode (axField w)) ((regField w).zeroExtend 8) v) = w := by
  have hax : (if o.usesAxis then (Axis.ofCode (axField w)).code else 0#2) = axField w := by
    cases hu : o.usesAxis
    · exact (h.ax hu).symm
    · exact Axis.code_ofCode _
  have hreg : (if o.usesReg then ((regField w).zeroExtend 8).truncate 7 else 0#7) = regField w := by
    cases hu : o.usesReg
    · exact (h.reg hu).symm
    · simp
  rw [encode, Opcode.instr_opcode, Opcode.instr_axBits, Opcode.instr_regBits, hax, hreg, ← h.opc, ← h.rsv]
  exact Machine.word_of_fields w

/-- What 30_encoding.md R107 asks of a host command: an `OPC` of the "host" column, `RSV` and `REG` 0, and
`AX` 0 where the operation has no axis. -/
theorem LegalFor.host {o : Opcode} {w : Word} (h : LegalFor o w) (ho : o.hostIssuable = true) :
    opcField w ∈ [0x01#8, 0x02#8, 0x03#8, 0x04#8, 0x05#8, 0x06#8, 0x07#8]
    ∧ rsvField w = 0#15 ∧ regField w = 0#7
    ∧ (opcField w ∈ [0x01#8, 0x02#8, 0x06#8] → axField w = 0#2) := by
  refine ⟨?_, h.rsv, h.reg ?_, fun hc => h.ax ?_⟩
  · rw [h.opc]
    revert ho; cases o <;> decide
  · revert ho; cases o <;> decide
  · rw [h.opc] at hc
    revert hc ho; cases o <;> decide

/-- Settles O2: each field of the command word gives its operand back. -/
theorem decodeEncodeRoundTrip : Obligations.DecodeEncodeRoundTrip := by
  intro i hi
  obtain ⟨_, hax, _, hreg, _⟩ := encodedFields i
  exact decode_eq_ok_iff.2 ⟨i.opcode, encode_legal i, by rw [hax, hreg, Instr.instr_fields hi]⟩

/-- Settles O3: the checks of the decoder leave no bit of the word outside the encoding. -/
theorem decodedWordIsItsEncoding : Obligations.DecodedWordIsItsEncoding := by
  intro w v i h
  obtain ⟨o, hl, rfl⟩ := decode_eq_ok_iff.1 h
  refine ⟨Opcode.instr_wellFormed _ _ _ _ (RegAddr.fits_zeroExtend _), encode_of_legal hl v, ?_⟩
  rw [Opcode.instr_opcode]
  exact Opcode.instr_dataOperand o _ _ v

/-- Settles O4: the words are closed, so the decoder is evaluated. -/
theorem specWordsDecode : Obligations.SpecWordsDecode := by
  unfold Obligations.SpecWordsDecode
  decide

end Sys2Proof
end

section
/-! SUPPORT. The issue of a command word (30_encoding.md R104, R107, R110, R111) and the instruction that the next
step runs (60_exceptions.md R279, R280). -/

namespace Sys2Proof.Machine

/-! ### The issue of a command word -/

/-- Every operation of the "host" column of 30_encoding.md R103 is issued through the checks of R104, INIT alone
being admitted before `init_done`. -/
theorem exec_hostIssuable {i : Instr} (h : i.opcode.hostIssuable = true) :
    ∃ body, ∀ s, exec i s = .next (hostCommand (decide (i = .init)) body s) := by
  cases i
  case init | calculate | home | setpos | getpos | rbCount | endstop => exact ⟨_, fun _ => rfl⟩
  all_goals cases h

theorem exec_busy {i : Instr} {s : State} (hi : i.opcode.hostIssuable = true) (hf : faultFree s)
    (ho : s.fgOp.isSome = true) : exec i s = .next (withFault .busy s) := by
  obtain ⟨body, h⟩ := exec_hostIssuable hi
  rw [h, hostCommand_busy _ body hf ho]

theorem rejectCommand_busy {s : State} (hf : faultFree s) (ho : s.fgOp.isSome = true) :
    rejectCommand s = withFault .busy s :=
  unitStep_error hf (by rw [if_pos ho])

theorem rejectCommand_idle {s : State} (hf : faultFree s) (ho : s.fgOp = none) :
    rejectCommand s = withFault .illegalCommand s :=
  unitStep_error hf (by simp [ho])

/-- A word is a host command, or its write to `CMD` is rejected (30_encoding.md R104, R107). -/
theorem issueCommand_admitted_or_rejected (w : Word) (s : State) :
    (∃ i, decode w 0#32 = .ok i ∧ i.opcode.hostIssuable = true ∧ issueCommand w s = exec i s)
    ∨ issueCommand w s = .next (rejectCommand s) := by
  unfold issueCommand
  cases hd : decode w 0#32 with
  | error => exact .inr rfl
  | ok i =>
    cases hi : i.opcode.hostIssuable
    · exact .inr (if_neg (by simp [hi]))
    · exact .inl ⟨i, rfl, hi, if_pos hi⟩

/-- Settles O5: a word that is a host command passes every check of R107. -/
theorem illegalCommandWordFaults : Obligations.IllegalCommandWordFaults := by
  intro s w hf ho hbad
  rcases issueCommand_admitted_or_rejected w s with ⟨i, hd, hi, _⟩ | h
  · obtain ⟨o, hl, rfl⟩ := decode_eq_ok_iff.1 hd
    rw [Opcode.instr_opcode] at hi
    obtain ⟨hopc, hrsv, hreg, hax⟩ := hl.host hi
    rcases hbad with h | h | h | ⟨hc, h⟩
    · exact absurd hopc h
    · exact absurd hrsv h
    · exact absurd hreg h
    · exact absurd (hax hc) h
  · exact h.trans (congrArg _ (rejectCommand_idle hf ho))

/-- Settles O10: both ways of a word written to `CMD` begin with the check for a running command. -/
theorem commandWhileBusyFaults : Obligations.CommandWhileBusyFaults := by
  intro w s hf ho
  rcases issueCommand_admitted_or_rejected w s with ⟨i, _, hi, h⟩ | h
  · exact h.trans (exec_busy hi hf ho)
  · exact h.trans (congrArg _ (rejectCommand_busy hf ho))

/-- Settles O9: every command but INIT is issued with the check of `init_done`. -/
theorem commandBeforeInitFaults : Obligations.CommandBeforeInitFaults := by
  intro i s hi hne hf ho hd
  obtain ⟨body, h⟩ := exec_hostIssuable hi
  rw [h, decide_eq_false hne, hostCommand_notInitialised body hf ho hd]

/-! ### The bus operations issued by themselves -/

/-- Settles O18: BUS_WRITE is one `busXfer`. -/
theorem busWriteSendsOneFrame : Obligations.BusWriteSendsOneFrame := by
  intro a r v s hf
  rcases busWriteOp_inv Config.params a r v s with ⟨h, _⟩ | ⟨_, h⟩
  · exact absurd hf h
  · exact congrArg _ h

/-- The data of a frame to a chip that was sent an address byte before is the draw for that register
(40_bus_transport.md R130, R131). -/
theorem frameAnswer_addressed (K : Params) {a : Axis} {ab : Byte} {s : State}
    (h : s.devLatch.get a = some ab) : frameAnswer K a s = K.oracle s.fresh a (addressed ab) := by
  rw [frameAnswer, h]

/-- A foreground step where no command runs finishes the open read (40_bus_transport.md R136, R137). -/
theorem foregroundStep_openRead (K : Params) {p : ReadPend} {s : State} (hf : s.faults = [])
    (ho : s.fgOp = none) (hr : s.readPend = some p) : foregroundStep K s = finishRead K p s := by
  simp [foregroundStep, foregroundBody, (not_faulted_iff s).2 hf, ho, hr]

theorem finishRead_eq (K : Params) (p : ReadPend) (s : State) :
    finishRead K p s = { s with
      cs := s.cs.set p.axis false
      devLatch := s.devLatch.set p.axis (some (readAddress p.reg))
      fresh := s.fresh + 1
      trace := s.trace ++ [frameOf K p.axis (readAddress p.reg) 0#32 s]
      readPend := none
      ret := .data (frameAnswer K p.axis s) } := by
  rw [finishRead, busReadSecond_eq]

/-- The second frame of a read, with none between the two, answers the register read (40_bus_transport.md R131,
R136, R138). -/
theorem finishRead_busReadFirst (K : Params) (a : Axis) (r : RegAddr) (s : State) :
    finishRead K ⟨a, r⟩ (busReadFirst K a r s) = { busReadFirst K a r s with
      fresh := s.fresh + 2
      readPend := none
      ret := .data (K.oracle (s.fresh + 1) a (addressed r))
      trace := s.trace ++ [frameOf K a (readAddress r) 0#32 s,
        .frame a (readAddress r) 0#32 (frameStatus K a (busReadFirst K a r s))
          (K.oracle (s.fresh + 1) a (addressed r))] } := by
  have hlatch : (busReadFirst K a r s).devLatch.get a = some r := PerAxis.get_set_self _ a _
  have hanswer : frameAnswer K a (busReadFirst K a r s) = K.oracle (s.fresh + 1) a (addressed r) :=
    frameAnswer_addressed K hlatch
  rw [finishRead_eq, frameOf, hanswer]
  simp [busReadFirst_eq]

/-- Settles O19: the issue sends the first frame, and the next foreground step finishes the read. -/
theorem busReadTakesTwoFrames : Obligations.BusReadTakesTwoFrames := by
  intro a r s hf ho
  have hissue : exec (.busRead a r) s = .next (busReadFirst Config.params a r s) := by
    rcases busReadOp_inv Config.params a r s with ⟨h, _⟩ | ⟨_, h⟩
    · exact absurd hf h
    · exact congrArg _ h
  have hfinish := (foregroundStep_openRead Config.params (s := busReadFirst Config.params a r s) hf ho rfl).trans
    (finishRead_busReadFirst Config.params a r s)
  exact ⟨_, _, _, hissue, rfl, busReadFirst_eq _ a r s, congrArg Host.Outcome.next hfinish⟩

/-! ### The argument, read at issue -/

/-- `ARG0 <- v` (20_memory.md R72). -/
def setArg0 (v : Word) (s : State) : State := { s with arg0 := v }

section
variable (K : Params) (v : Word) (s : State)

@[simp] theorem setArg0_faulted : (setArg0 v s).faulted = s.faulted := rfl
@[simp] theorem setArg0_fgOp : (setArg0 v s).fgOp = s.fgOp := rfl
@[simp] theorem setArg0_homePhase : (setArg0 v s).homePhase = s.homePhase := rfl
@[simp] theorem setArg0_homeAxis : (setArg0 v s).homeAxis = s.homeAxis := rfl
@[simp] theorem setArg0_homeParams : (setArg0 v s).homeParams = s.homeParams := rfl
@[simp] theorem setArg0_endCall : (setArg0 v s).endCall = s.endCall := rfl
@[simp] theorem setArg0_readPend : (setArg0 v s).readPend = s.readPend := rfl

theorem finishRead_setArg0 (p : ReadPend) :
    finishRead K p (setArg0 v s) = setArg0 v (finishRead K p s) := rfl

theorem homePoll_setArg0 (a : Axis) (stopped moving : HomePhase) :
    homePoll K a stopped moving (setArg0 v s) = setArg0 v (homePoll K a stopped moving s) := by
  rw [homePoll_eq, homePoll_eq, setArg0_readPend, apply_ite (setArg0 v)]
  rfl

theorem endstopStep_setArg0 (c : EndCall) :
    endstopStep K c (setArg0 v s) = setArg0 v (endstopStep K c s) := by
  rw [endstopStep_eq, endstopStep_eq, setArg0_readPend, apply_ite (setArg0 v)]
  rfl

/-- No phase of HOME reads `ARG0`: its parameters were computed at issue (44_homing.md R221). -/
theorem homeStep_setArg0 (a : Axis) (p : HomeParams) :
    homeStep K a p (setArg0 v s) = setArg0 v (homeStep K a p s) := by
  cases h : s.homePhase <;> simp only [homeStep, setArg0_homePhase, h]
  case seekPoll | retPoll => exact homePoll_setArg0 K v s a _ _
  all_goals rfl

theorem foregroundBody_setArg0 :
    foregroundBody K (setArg0 v s) = setArg0 v (foregroundBody K s) := by
  simp only [foregroundBody, setArg0_fgOp, setArg0_readPend, setArg0_homeAxis, setArg0_homeParams,
    setArg0_endCall]
  split
  · split
    · exact finishRead_setArg0 K v s _
    · rfl
  · split
    · exact homeStep_setArg0 K v s _ _
    · rfl
  · split
    · exact endstopStep_setArg0 K v s _
    · rfl
  · rfl

theorem foregroundStep_setArg0 :
    foregroundStep K (setArg0 v s) = setArg0 v (foregroundStep K s) := by
  simp only [foregroundStep, setArg0_faulted, foregroundBody_setArg0, apply_ite (setArg0 v)]

end

/-- Settles O50: no step of an operation in progress reads `ARG0`. -/
theorem argumentReadAtIssue : Obligations.ArgumentReadAtIssue :=
  fun K s v => foregroundStep_setArg0 K v s

/-! ### What the next step runs -/

/-- With the port empty the first choice of the agenda takes its step (60_exceptions.md R280). -/
theorem step_agenda {s : State} {α : Action} {rest : List Action} (hp : s.opPort = none)
    (ha : s.agenda = α :: rest) : step s = act α { s with agenda := rest } := by
  simp only [step, runStep, hp, runAgents, ha]

theorem step_staged {s : State} {o : StagedOp} {i : Instr} (hp : s.opPort = some o)
    (hd : decode o.word o.data = .ok i) : step s = exec i { s with opPort := none } := by
  simp only [step, runStep, hp, runStaged, hd]

theorem step_command {s : State} {w : Word} {i : Instr} {rest : List Action} (hp : s.opPort = none)
    (ha : s.agenda = .hostWrite 0x00 4 w :: rest) (hd : decode w 0#32 = .ok i)
    (hi : i.opcode.hostIssuable = true) : step s = exec i { s with agenda := rest } :=
  (step_agenda hp ha).trans (issueCommand_admitted hd hi _)

theorem tableData_command (w : Nat) : tableData 32 w = 0#32 := by
  simp [tableData]

theorem decode_of_decodeTableWord {n w : Nat} {i : Instr} (h : decodeTableWord n w = some i) :
    decode (tableWord n w) (tableData n w) = .ok i := by
  unfold decodeTableWord at h
  split at h
  · rename_i hd
    rw [hd, Option.some.inj h]
  · cases h

theorem opcode_eq_timerCompare_iff (i : Instr) : i.opcode = .timerCompare ↔ i = .timerCompare := by
  cases i <;> simp [Instr.opcode]

/-- A placed instruction is what the next step runs: as a write to `CMD`, as the interrupt, or from the port. -/
theorem step_placeWord {w : Word} {i : Instr} (hd : decode w 0#32 = .ok i) (s : State) :
    step (placeWord w 0#32 s)
      = exec i { (if i = .timerCompare then raiseInterrupt s else s) with opPort := none } := by
  by_cases ht : i = .timerCompare
  · subst ht
    simp only [placeWord, hd, if_pos]
    exact step_agenda (α := .interrupt) rfl rfl
  · have ht' : i.opcode ≠ .timerCompare := mt (opcode_eq_timerCompare_iff i).1 ht
    cases hi : i.opcode.hostIssuable
    · simp only [placeWord, hd, hi, ht', ht, if_false, Bool.false_eq_true]
      exact step_staged rfl hd
    · simp only [placeWord, hd, hi, ht, if_true, if_false]
      exact step_command rfl rfl hd hi

/-- Settles O1: a staged operation comes first, then the first choice of the agenda. -/
theorem stepRunsDecodedInstruction : Obligations.StepRunsDecodedInstruction := by
  refine ⟨fun s w i rest => step_command, fun s o i => step_staged, fun s rest => step_agenda,
    fun s rest => step_agenda, fun s rest => step_agenda, fun s w i h => ?_⟩
  have hd := decode_of_decodeTableWord h
  rw [tableData_command] at hd
  rw [State.withFetchWord, tableData_command]
  exact step_placeWord hd s

/-! ### The host's lines -/

/-- The words of the lines with an axis: `ax << 22` is the axis field (30_encoding.md R100, R110). -/
theorem lineWords_eq_encode (a : Axis) :
    0x03000000#32 ||| axisBits a = encode (.home a) ∧ 0x04000000#32 ||| axisBits a = encode (.setpos a)
    ∧ 0x05000000#32 ||| axisBits a = encode (.getpos a)
    ∧ 0x07000000#32 ||| axisBits a = encode (.endstop a) := by
  cases a <;> exact ⟨rfl, rfl, rfl, rfl⟩

/-- A write of a host command's word to `CMD` runs it. -/
theorem act_encode {i : Instr} (hw : i.wellFormed = true) (hi : i.opcode.hostIssuable = true)
    (hv : i.dataOperand = 0#32) (s : State) : act (cmdWrite (encode i)) s = exec i s :=
  issueCommand_admitted (hv ▸ decodeEncodeRoundTrip i hw) hi s

theorem execSetpos_accepted (a : Axis) {s : State} (h : acceptsCommand s) :
    exec (.setpos a) s = .next { s with pos := s.pos.set a s.arg0 } :=
  congrArg Host.Outcome.next (hostCommand_ok h rfl)

theorem execGetpos_accepted (a : Axis) {s : State} (h : acceptsCommand s) :
    exec (.getpos a) s = .next { s with result := s.pos.get a } :=
  congrArg Host.Outcome.next (hostCommand_ok h rfl)

/-- After a poll the loop of WAIT_IDLE goes on exactly where STATUS.BUSY was read (30_encoding.md R111). -/
theorem waitGoesOn_polled (s : State) : waitGoesOn { s with hostData := s.status } = s.busy :=
  status_getLsbD s 0

/-- Settles O17: each line's word is the encoding of its instruction, which decodes to it. -/
theorem hostLinesIssueTheirCommands : Obligations.HostLinesIssueTheirCommands := by
  refine ⟨rfl, rfl, rfl, fun a v => ?_, fun a v s h => ?_, fun s => ?_⟩
  · obtain ⟨hhome, hsetpos, hgetpos, hendstop⟩ := lineWords_eq_encode a
    simp only [HostLine.expand, hhome, hsetpos, hgetpos, hendstop, and_self]
  · refine ⟨{ s with arg0 := v }, rfl, ?_, ?_⟩
    · rw [act_encode rfl rfl rfl, execSetpos_accepted a (s := { s with arg0 := v }) h]
    · rw [act_encode rfl rfl rfl, execGetpos_accepted a h]
  · refine ⟨{ s with hostData := s.status }, rfl, ?_⟩
    rw [waitGoesOn_polled]
    simp [State.busy]

end Sys2Proof.Machine
end

section
/-! SUPPORT. The read pipeline with a frame between the two frames of a read, the byte order of a frame
(40_bus_transport.md R131, R133, R136), and a dispatch while a bus command runs (R140). -/

namespace Sys2Proof.Machine

/-! ### A frame between the two frames of a read -/

/-- The second frame of a read returns the draw for the register that the chip's last address byte names
(40_bus_transport.md R131, R138). -/
theorem finishRead_ret_of_latch (K : Params) {p : ReadPend} {ab : Byte} {s : State}
    (h : s.devLatch.get p.axis = some ab) :
    (finishRead K p s).ret = .data (K.oracle s.fresh p.axis (addressed ab)) :=
  congrArg Ret.data (frameAnswer_addressed K h)

/-- Settles O20: the write of O18 between the two frames of O19 leaves the read open and its own address byte in
the chip's latch, which the second frame answers. -/
theorem interposedFrameChangesRead : Obligations.InterposedFrameChangesRead := by
  intro a r r' v s s1 s2 hf ho hread hwrite
  obtain ⟨_, _, _, hissue, _, hs1, _⟩ := busReadTakesTwoFrames a r s hf ho
  obtain rfl := Host.Outcome.next.inj (hread.symm.trans hissue)
  have hf1 : s1.faults = [] := by rw [hs1, hf]
  have hs2 := Host.Outcome.next.inj (hwrite.symm.trans (busWriteSendsOneFrame a r' v s1 hf1))
  have hf2 : s2.faults = [] := by rw [hs2, hf1]
  have ho2 : s2.fgOp = none := by rw [hs2, hs1, ho]
  have hopen : s2.readPend = some ⟨a, r⟩ := by rw [hs2, hs1]
  have hlatch : s2.devLatch.get a = some (Config.params.writeFlag ||| r') := by
    rw [hs2, PerAxis.get_set_self]
  have hfresh : s2.fresh = s.fresh + 2 := by rw [hs2, hs1]
  refine ⟨_, congrArg Host.Outcome.next (foregroundStep_openRead Config.params hf2 ho2 hopen), ?_⟩
  rw [← hfresh]
  exact finishRead_ret_of_latch Config.params hlatch

/-! ### The byte order of a frame -/

/-- A value split into its bytes in wire order is reassembled from them (40_bus_transport.md R133). -/
theorem ofWireBytes_extractLsb' (v : Word) :
    ofWireBytes (v.extractLsb' 24 8) (v.extractLsb' 16 8) (v.extractLsb' 8 8) (v.extractLsb' 0 8) = v := by
  have hlow : v.extractLsb' 8 8 ++ v.extractLsb' 0 8 = v.extractLsb' 0 16 :=
    BitVec.extractLsb'_append_extractLsb'_eq_extractLsb' rfl
  have hmid : v.extractLsb' 16 8 ++ v.extractLsb' 0 16 = v.extractLsb' 0 24 :=
    BitVec.extractLsb'_append_extractLsb'_eq_extractLsb' rfl
  have hall : v.extractLsb' 24 8 ++ v.extractLsb' 0 24 = v.extractLsb' 0 32 :=
    BitVec.extractLsb'_append_extractLsb'_eq_extractLsb' rfl
  rw [ofWireBytes, hlow, hmid, hall, BitVec.extractLsb'_eq_self]

/-- Four received bytes are the bytes in wire order of the value they are reassembled to (40_bus_transport.md
R133). -/
theorem wireBytes_ofWireBytes (b0 b1 b2 b3 : Byte) :
    wireBytes (ofWireBytes b0 b1 b2 b3) = [b0, b1, b2, b3] := by
  have hb0 : (ofWireBytes b0 b1 b2 b3).extractLsb' 24 8 = b0 := BitVec.extractLsb'_append_eq_left
  have hb1 : (ofWireBytes b0 b1 b2 b3).extractLsb' 16 8 = b1 :=
    (BitVec.extractLsb'_append_eq_of_add_le (by decide)).trans BitVec.extractLsb'_append_eq_left
  have hlow (k : Nat) (hk : k + 8 ≤ 16) :
      (ofWireBytes b0 b1 b2 b3).extractLsb' k 8 = (b2 ++ b3).extractLsb' k 8 :=
    (BitVec.extractLsb'_append_eq_of_add_le (Nat.le_trans hk (by decide))).trans
      (BitVec.extractLsb'_append_eq_of_add_le hk)
  have hb2 : (ofWireBytes b0 b1 b2 b3).extractLsb' 8 8 = b2 :=
    (hlow 8 (by decide)).trans BitVec.extractLsb'_append_eq_left
  have hb3 : (ofWireBytes b0 b1 b2 b3).extractLsb' 0 8 = b3 :=
    (hlow 0 (by decide)).trans BitVec.extractLsb'_append_eq_right
  rw [wireBytes, hb0, hb1, hb2, hb3]

/-- Settles O21: splitting and reassembly are inverse to each other. -/
theorem frameByteOrder : Obligations.FrameByteOrder :=
  ⟨fun _ _ => rfl, ofWireBytes_extractLsb', wireBytes_ofWireBytes⟩

/-! ### A dispatch while a bus command runs -/

theorem busy_iff (s : State) : s.busy = true ↔ s.fgOp = some .home ∨ s.fgOp = some .endstop := by
  simp [State.busy]

theorem ringEmpty_eq_false_iff (s : State) : s.ringEmpty = false ↔ s.head ≠ s.tail ∨ s.full = true := by
  simp [State.ringEmpty, Decidable.imp_iff_not_or]

/-- Settles O39: the handler is in state Dispatching and the bus is in use, so the fault is all it records. -/
theorem dispatchDuringBusCommandFaults : Obligations.DispatchDuringBusCommandFaults := by
  intro s ht hz hc hring hready hop
  have hdisp : s.handlerState = .dispatching :=
    (dispatching_iff s).2 ⟨hc, (ringEmpty_eq_false_iff s).2 hring, hready⟩
  have hfault : interruptStep Config.params s = raiseFault .busContention s :=
    interruptStep_contention _ s ht hdisp ((busy_iff s).2 hop)
  have ⟨_, _, _, _, _, hf⟩ := ht
  exact congrArg Host.Outcome.next (hfault.trans (raiseFault_faultFree _ s ⟨hf, hz⟩))

end Sys2Proof.Machine
end

section
/-! SUPPORT. The ring operations issued by themselves and RB_COUNT (41_ring_buffer.md R152 to R158), the
occupancy of a well-formed ring, and the ring as a FIFO queue of segments (R156, R157). -/

namespace Sys2Proof.Machine

/-! ### The ring operations -/

/-- Settles O22: the body of RB_TRY_ENQUEUE is `rbTryEnqueue_eq`. -/
theorem tryEnqueueReservesHead : Obligations.TryEnqueueReservesHead := by
  intro s hf
  rcases rbTryEnqueueOp_inv s with ⟨h, _⟩ | ⟨_, hfull, e⟩ | ⟨_, hfull, e⟩
  · exact absurd hf h
  · exact ⟨fun h => by simp [hfull] at h, fun _ => congrArg Host.Outcome.next e⟩
  · exact ⟨fun _ => congrArg Host.Outcome.next e, fun h => by simp [hfull] at h⟩

/-- Settles O23: RB_COMMIT commits exactly where the ring is not full and the head is reserved. -/
theorem commitAdvancesHead : Obligations.CommitAdvancesHead := by
  intro s hf
  rcases rbCommit_cases Config.params s with ⟨hfull, hslot, e⟩ | ⟨hbad, e⟩
  · refine ⟨fun _ _ => congrArg Host.Outcome.next (unitStep_ok hf e), fun h => ?_⟩
    simp [hfull, hslot] at h
  · refine ⟨fun hfull hslot => ?_, fun _ hz => congrArg Host.Outcome.next (unitStep_error ⟨hf, hz⟩ e)⟩
    simp [hfull, hslot] at hbad

theorem rbPeekReady_eq (s : State) : rbPeekReady s = if s.ringEmpty then none else some s.tail := rfl

/-- Settles O24: RB_PEEK_READY answers by `ringEmpty`. -/
theorem peekReadyAnswersTail : Obligations.PeekReadyAnswersTail := by
  intro s hf
  have hop : exec .rbPeekReady s = .next { s with ret := .slot (rbPeekReady s) } :=
    congrArg Host.Outcome.next (unitStep_ok hf rfl)
  refine ⟨fun hht hfull => ?_, fun hne => ?_⟩
  · rw [hop, rbPeekReady_eq, if_pos ((ringEmpty_iff s).2 ⟨hht, hfull⟩)]
  · rw [hop, rbPeekReady_eq, (ringEmpty_false_iff s).2 hne]
    rfl

/-- Settles O25: RB_DISCARD discards exactly where the ring is not empty. -/
theorem discardAdvancesTail : Obligations.DiscardAdvancesTail := by
  intro s hf
  rcases rbDiscard_cases Config.params s with ⟨he, e⟩ | ⟨he, e⟩
  · refine ⟨fun hne => ?_, fun _ _ hz => congrArg Host.Outcome.next (unitStep_error ⟨hf, hz⟩ e)⟩
    simp [(ringEmpty_false_iff s).2 hne] at he
  · refine ⟨fun _ => congrArg Host.Outcome.next (unitStep_ok hf e), fun hht hfull => ?_⟩
    simp [(ringEmpty_iff s).2 ⟨hht, hfull⟩] at he

/-- RB_COUNT where it is accepted (41_ring_buffer.md R158). -/
theorem execRbCount_accepted {s : State} (h : acceptsCommand s) :
    exec .rbCount s = .next { s with result := ringCount Config.params s.head s.tail s.full } :=
  congrArg Host.Outcome.next (hostCommand_ok h rfl)

@[simp] theorem queue_length (K : Params) (s : State) : (queue K s).length = occupancy K s := by
  simp [queue]

/-- Settles O26: RESULT and the length of the queue are both `ringCount`. -/
theorem countReportsOccupancy : Obligations.CountReportsOccupancy :=
  fun s h => ⟨execRbCount_accepted h, fun _ => ⟨_, execRbCount_accepted h, (queue_length _ s).symm⟩⟩

/-! ### The occupancy -/

/-- The occupancy counts from the tail up to the head, around the end of the ring (41_ring_buffer.md R158). -/
theorem occupancy_split {K : Params} {s : State} (hs : ringWf K s) :
    occupancy K s = if s.full then K.n.toNat
      else if s.tail.toNat ≤ s.head.toNat then s.head.toNat - s.tail.toNat
      else s.head.toNat + K.n.toNat - s.tail.toNat := by
  rw [occupancy_eq K s hs]
  obtain ⟨_, hhead, htail, _⟩ := hs
  split
  · rfl
  · split
    · rw [Nat.sub_add_comm (by assumption), Nat.add_mod_right, Nat.mod_eq_of_lt (by omega)]
    · rw [Nat.mod_eq_of_lt (by omega)]

/-- The successor of an index of the ring: the next one, or 0 after the last (41_ring_buffer.md R150). -/
theorem ringNext_split {K : Params} {i : Word} (hi : i.toNat < K.n.toNat) :
    (ringNext K i).toNat = if i.toNat + 1 = K.n.toNat then 0 else i.toNat + 1 := by
  rw [ringNext_toNat]
  split
  next h => rw [h, Nat.mod_self]
  next => exact Nat.mod_eq_of_lt (by omega)

theorem occupancy_le {K : Params} {s : State} (hs : ringWf K s) : occupancy K s ≤ K.n.toNat := by
  rw [occupancy_split hs]
  obtain ⟨_, hhead, htail, _⟩ := hs
  split_ifs <;> omega

/-- `full` is the flag of the occupancy `N` (10_state.md R28, 41_ring_buffer.md R158). -/
theorem occupancy_eq_n_iff {K : Params} {s : State} (hs : ringWf K s) :
    occupancy K s = K.n.toNat ↔ s.full = true := by
  rw [occupancy_split hs]
  obtain ⟨_, hhead, htail, _⟩ := hs
  cases s.full
  · simp only [Bool.false_eq_true, if_false, iff_false]
    split <;> omega
  · simp

theorem occupancy_lt {K : Params} {s : State} (hs : ringWf K s) (hf : s.full = false) :
    occupancy K s < K.n.toNat :=
  Nat.lt_of_le_of_ne (occupancy_le hs) (mt (occupancy_eq_n_iff hs).1 (by simp [hf]))

/-- The head is the slot after the committed ones (41_ring_buffer.md R156). -/
theorem tail_add_occupancy {K : Params} {s : State} (hs : ringWf K s) :
    (s.tail.toNat + occupancy K s) % K.n.toNat = s.head.toNat := by
  rw [occupancy_split hs]
  obtain ⟨_, hhead, htail, hfull⟩ := hs
  split_ifs with hf hle
  · rw [Nat.add_mod_right, Nat.mod_eq_of_lt htail, hfull hf]
  · rw [Nat.add_sub_of_le hle, Nat.mod_eq_of_lt hhead]
  · rw [Nat.add_sub_of_le (by omega), Nat.add_mod_right, Nat.mod_eq_of_lt hhead]

/-- Settles O27: RB_TRY_ENQUEUE answers by `full`, the flag of the occupancy `N`. -/
theorem enqueueFailsExactlyWhenFull : Obligations.EnqueueFailsExactlyWhenFull := by
  intro s hs hf
  obtain ⟨hfree, hfull⟩ := tryEnqueueReservesHead s hf
  refine ⟨occupancy_le hs, ?_⟩
  rw [occupancy_eq_n_iff hs]
  cases h : s.full
  · exact ⟨_, hfree h, by simp⟩
  · exact ⟨_, hfull h, by simp⟩

/-- Where a slot is free, an enqueue and its commit succeed, and fill the ring where the head catches the tail
(41_ring_buffer.md R152, R153). -/
theorem enqueue_commit {s : State} (hf : s.faults = []) (hfree : s.full = false) :
    ∃ s1 s2 : State, exec .rbTryEnqueue s = .next s1 ∧ s1.ret = .slot (some s.head)
      ∧ exec .rbCommit s1 = .next s2 ∧ s2.faults = []
      ∧ s2.full = (ringNext Config.params s.head == s.tail) := by
  have hcommit := (commitAdvancesHead { s with prodSlot := some s.head, ret := .slot (some s.head) } hf).1
    hfree rfl
  exact ⟨_, _, (tryEnqueueReservesHead s hf).1 hfree, rfl, hcommit, hf, rfl⟩

/-- Settles O28: a full ring has its head at its tail, and the discard and the commit move both to the same next
slot. -/
theorem discardAllowsOneEnqueue : Obligations.DiscardAllowsOneEnqueue := by
  intro s hs hf hfull
  obtain ⟨_, _, _, hht⟩ := hs
  obtain ⟨s2, s3, henqueue, hslot, hcommit, hf3, hfull3⟩ := enqueue_commit
    (s := { s with tail := ringNext Config.params s.tail, full := false }) hf rfl
  have hcatch : s3.full = true := by rw [hfull3, hht hfull, beq_self_eq_true]
  exact ⟨_, s2, s3, _, (discardAdvancesTail s hf).1 (.inr hfull), henqueue, hslot, hcommit, hcatch,
    (tryEnqueueReservesHead s3 hf3).2 hcatch, rfl⟩

/-! ### The queue -/

/-- The index in `slots` of the `k`-th committed segment (41_ring_buffer.md R156). -/
def queueIndex (K : Params) (s : State) (k : Nat) : Nat := (s.tail.toNat + k) % K.n.toNat

theorem queue_eq_map (K : Params) (s : State) :
    queue K s = (List.range (occupancy K s)).map fun k =>
      s.slots.getD (queueIndex K s k) Segment.atReset := rfl

theorem queue_congr {K : Params} {s t : State} (h : t.ring = s.ring) : queue K t = queue K s := by
  simp only [State.ring, Prod.mk.injEq] at h
  obtain ⟨hslots, hhead, htail, hfull⟩ := h
  simp only [queue, occupancy, hslots, hhead, htail, hfull]

/-- Fewer than `N` steps away from each other, two places of the queue have different slots. -/
theorem queueIndex_inj {K : Params} {s : State} {j k : Nat} (hj : j < K.n.toNat) (hk : k < K.n.toNat)
    (h : queueIndex K s j = queueIndex K s k) : j = k :=
  (Nat.ModEq.add_left_cancel' s.tail.toNat h).eq_of_lt_of_lt hj hk

/-- A write to the slot of one place of the queue leaves the segment at any other. -/
theorem getD_set_queueIndex_ne {K : Params} {s : State} {j k : Nat} (hj : j < K.n.toNat)
    (hk : k < K.n.toNat) (hne : j ≠ k) (g : Segment) :
    (s.slots.set (queueIndex K s j) g).getD (queueIndex K s k) Segment.atReset
      = s.slots.getD (queueIndex K s k) Segment.atReset := by
  have hne' : queueIndex K s j ≠ queueIndex K s k := fun h => hne (queueIndex_inj hj hk h)
  simp [List.getD, List.getElem?_set_ne hne']

theorem queueIndex_zero {K : Params} {s : State} (hs : ringWf K s) :
    queueIndex K s 0 = s.tail.toNat := by
  obtain ⟨_, _, htail, _⟩ := hs
  exact Nat.mod_eq_of_lt htail

/-- After the tail has moved on, each place of the queue is the one after it before. -/
theorem queueIndex_discard {K : Params} {s t : State} (ht : t.tail = ringNext K s.tail) (k : Nat) :
    queueIndex K t k = queueIndex K s (k + 1) := by
  rw [queueIndex, ht, ringNext_toNat, Nat.mod_add_mod, queueIndex, Nat.add_assoc, Nat.add_comm 1 k]

/-- `t` is `s` after a commit of `g` in the head's slot (41_ring_buffer.md R153, R157). -/
structure Commits (K : Params) (g : Segment) (s t : State) : Prop where
  slots : t.slots = s.slots.set s.head.toNat g
  head : t.head = ringNext K s.head
  tail : t.tail = s.tail
  full : t.full = (ringNext K s.head == s.tail)

/-- `t` is `s` after a discard that leaves `g` in the tail's slot (41_ring_buffer.md R155, R157). -/
structure Discards (K : Params) (g : Segment) (s t : State) : Prop where
  slots : t.slots = s.slots.set s.tail.toNat g
  head : t.head = s.head
  tail : t.tail = ringNext K s.tail
  full : t.full = false

theorem Commits.occupancy_eq {K : Params} {g : Segment} {s t : State} (h : Commits K g s t)
    (hs : ringWf K s) (hf : s.full = false) : occupancy K t = occupancy K s + 1 := by
  have hwf : ringWf K t := ringWf_of_commit hs (by rw [h.slots, List.length_set]) h.head h.tail h.full
  obtain ⟨_, hhead, htail, _⟩ := id hs
  have hnext := ringNext_split hhead
  have hfull : t.full = true ↔ (ringNext K s.head).toNat = s.tail.toNat := by
    rw [h.full, beq_iff_eq, BitVec.toNat_inj]
  rw [occupancy_split hwf, occupancy_split hs, h.head, h.tail]
  simp only [hfull, hf, Bool.false_eq_true, if_false]
  split_ifs at hnext ⊢ <;> omega

/-- A commit appends its segment to the queue (41_ring_buffer.md R153, R157): it goes to the slot after the
committed ones, which holds none of them. -/
theorem Commits.queue_eq {K : Params} {g : Segment} {s t : State} (h : Commits K g s t)
    (hs : ringWf K s) (hf : s.full = false) : queue K t = queue K s ++ [g] := by
  have hlt := occupancy_lt hs hf
  have hhead : queueIndex K s (occupancy K s) = s.head.toNat := tail_add_occupancy hs
  have hindex (k : Nat) : queueIndex K t k = queueIndex K s k := by rw [queueIndex, h.tail, queueIndex]
  have hold : ∀ k ∈ List.range (occupancy K s), t.slots.getD (queueIndex K t k) Segment.atReset
      = s.slots.getD (queueIndex K s k) Segment.atReset := by
    intro k hk
    have hk' := List.mem_range.1 hk
    rw [hindex, h.slots, ← hhead, getD_set_queueIndex_ne hlt (hk'.trans hlt) hk'.ne']
  have hnew : t.slots.getD (queueIndex K t (occupancy K s)) Segment.atReset = g := by
    obtain ⟨hlen, hin, _, _⟩ := hs
    rw [hindex, hhead, h.slots]
    simp [List.getD, hlen ▸ hin]
  rw [queue_eq_map, h.occupancy_eq hs hf, List.range_succ, List.map_append, List.map_congr_left hold,
    List.map_singleton, hnew, ← queue_eq_map]

theorem Discards.occupancy_eq {K : Params} {g : Segment} {s t : State} (h : Discards K g s t)
    (hs : ringWf K s) (he : s.ringEmpty = false) : occupancy K s = occupancy K t + 1 := by
  have hwf : ringWf K t := ringWf_of_discard hs (by rw [h.slots, List.length_set]) h.head h.tail h.full
  obtain ⟨_, hhead, htail, hfull⟩ := id hs
  have hnext := ringNext_split htail
  rw [occupancy_split hwf, occupancy_split hs, h.head, h.tail, h.full]
  cases hf : s.full <;> simp only [Bool.false_eq_true, if_false, if_true]
  case false =>
    have hne : s.head.toNat ≠ s.tail.toNat := by
      simpa [hf, BitVec.toNat_inj] using (ringEmpty_false_iff s).1 he
    split_ifs at hnext ⊢ <;> omega
  case true =>
    have hht : s.head.toNat = s.tail.toNat := congrArg BitVec.toNat (hfull hf)
    split_ifs at hnext ⊢ <;> omega

/-- A discard removes the oldest segment (41_ring_buffer.md R155, R157): the tail's slot, which it may write,
is no longer one of the queue's. -/
theorem Discards.queue_eq {K : Params} {g : Segment} {s t : State} (h : Discards K g s t)
    (hs : ringWf K s) (he : s.ringEmpty = false) : queue K s = s.slot s.tail :: queue K t := by
  have hocc := h.occupancy_eq hs he
  have hle := occupancy_le hs
  have hrest : ∀ k ∈ List.range (occupancy K t), s.slots.getD (queueIndex K s (k + 1)) Segment.atReset
      = t.slots.getD (queueIndex K t k) Segment.atReset := by
    intro k hk
    have hk' := List.mem_range.1 hk
    rw [queueIndex_discard h.tail, h.slots, ← queueIndex_zero hs,
      getD_set_queueIndex_ne (n_pos K) (by omega) (Nat.succ_ne_zero k).symm]
  rw [queue_eq_map, hocc, List.range_succ_eq_map, List.map_cons, List.map_map, queueIndex_zero hs,
    queue_eq_map K t, ← List.map_congr_left hrest]
  rfl

/-! ### Who changes the queue -/

/-- Of the host commands only CALC writes the ring (41_ring_buffer.md R151). -/
theorem exec_ring {i : Instr} (hh : i.opcode.hostIssuable = true) (hn : i ≠ .calculate) {s t : State}
    (h : exec i s = .next t) : t.ring = s.ring := by
  refine exec_unwritten State.ring (fun _ _ _ => rfl) h ?_
  cases i with
  | calculate => exact absurd rfl hn
  | rbCommit | rbDiscard | timerCompare => cases hh
  | _ => rfl

/-- The ring changes by the command CALC, the handler and the reset alone (41_ring_buffer.md R151). -/
theorem act_ring {α : Action} {s t : State} (hr : α ≠ .reset) (hn : α ≠ .interrupt)
    (hc : α ≠ .hostWrite 0x00 4 0x02000000#32) (h : act α s = .next t) : t.ring = s.ring := by
  refine act_unwritten State.ring (fun _ _ _ => rfl) h ?_ fun w i hα hi hh he =>
    exec_ring hh (fun hcalc => hc ?_) he
  · cases α with
    | reset => exact absurd rfl hr
    | interrupt => exact absurd rfl hn
    | hostWrite => rw [writtenByAgent_hostWrite]; rfl
    | _ => rfl
  · subst hcalc; rw [hα, word_of_decode_calculate hi]

/-- CALC leaves the queue or appends a ready segment (42_segment_calculator.md R170). -/
theorem calcCommand_queue {K : Params} {s : State} (hs : ringWf K s) :
    queue K (calcCommand K s) = queue K s
    ∨ ∃ g : Segment, g.ready = true ∧ queue K (calcCommand K s) = queue K s ++ [g] := by
  rcases calcCommand_inv K s with h | ⟨_, _, e⟩ | ⟨_, hf, b, rest, _, e⟩
  · exact .inl (queue_congr h.ring)
  · exact .inl (queue_congr (by rw [e]; rfl))
  · have hcommit : Commits K (buildSegment K s b) s (calcCommand K s) := by
      rw [e]; exact ⟨rfl, rfl, rfl, rfl⟩
    exact .inr ⟨buildSegment K s b, rfl, hcommit.queue_eq hs hf⟩

/-- The handler leaves the queue or removes its oldest segment, a ready one, and sends that one's frames
(43_dispatch_interrupt.md R203 to R205). -/
theorem interruptStep_queue {K : Params} {s : State} (hs : ringWf K s) :
    queue K (interruptStep K s) = queue K s
    ∨ ∃ g : Segment, g.ready = true ∧ (interruptStep K s).countdown = g.duration
      ∧ queue K s = g :: queue K (interruptStep K s)
      ∧ ∃ evs, (interruptStep K s).trace = s.trace ++ evs
        ∧ evs.map Event.sent = dispatchSent K g := by
  rcases interruptStep_inv K s with ⟨_, e⟩ | ⟨_, _, e⟩ | ⟨_, _, e⟩ | ⟨_, _, _, _, e⟩
    | ⟨_, he, hready, _, evs, hsent, e⟩
  · exact .inl (by rw [e])
  · exact .inl (queue_congr (by rw [e]; rfl))
  · exact .inl (queue_congr (by rw [e]; rfl))
  · exact .inl (queue_congr (by rw [e]; rfl))
  · have hdiscard : Discards K { s.slot s.tail with ready := false } s (interruptStep K s) := by
      rw [e]; exact ⟨rfl, rfl, rfl, rfl⟩
    exact .inr ⟨s.slot s.tail, hready, by rw [e], hdiscard.queue_eq hs he, evs, by rw [e], hsent⟩

/-- After reset no segment is committed (70_reset_and_hazards.md R300). -/
theorem resetStep_queue (K : Params) (s : State) : queue K (resetStep K s) = [] := by
  simp [queue, occupancy, ringCount, resetStep, State.resetWith]

/-- Settles O54: CALC, the handler and the reset are the ring's only writers among the agents' steps. -/
theorem ringIsFifoQueue : Obligations.RingIsFifoQueue := by
  intro α s t hs h
  by_cases hc : α = .hostWrite 0x00 4 0x02000000#32
  · subst hc
    obtain rfl := Host.Outcome.next.inj h
    exact (calcCommand_queue hs).imp_right fun happend => .inl ⟨rfl, happend⟩
  by_cases hi : α = .interrupt
  · subst hi
    obtain rfl := Host.Outcome.next.inj h
    exact (interruptStep_queue hs).imp_right fun hremove => .inr (.inl ⟨rfl, hremove⟩)
  by_cases hr : α = .reset
  · subst hr
    obtain rfl := Host.Outcome.next.inj h
    exact .inr (.inr (.inr ⟨rfl, resetStep_queue _ s⟩))
  exact .inl (queue_congr (act_ring hr hi hc h))

end Sys2Proof.Machine
end

section
/-! SUPPORT. What CALC does with each kind of block, the segment's values axis by axis and its duration
(42_segment_calculator.md R170 to R182). -/

namespace Sys2Proof.Machine

/-! ### CALC as an instruction -/

/-- The blocks that CALC admits (42_segment_calculator.md R172). -/
theorem not_malformed_iff (b : Block) : ¬ (Block.moves b = true ∧ b.eventCount = 0#32)
    ↔ (∀ a, b.steps.get a = 0#32) ∨ b.eventCount ≠ 0#32 := by
  rw [moves_iff, not_and_or, not_exists]
  simp only [not_not, ne_eq]

theorem execCalc_good {s : State} {b : Block} {rest : List Block} (ha : acceptsCommand s)
    (hf : s.full = false) (hp : s.plan = b :: rest)
    (hgood : (∀ a, b.steps.get a = 0#32) ∨ b.eventCount ≠ 0#32) :
    exec .calculate s = .next (afterCalc Config.params b rest s) :=
  congrArg Host.Outcome.next (calcCommand_good _ ha hf hp ((not_malformed_iff b).2 hgood))

/-- Settles O31: the body of CALC then only returns the reservation. -/
theorem calcNoOp : Obligations.CalcNoOp := fun s ha hn =>
  congrArg Host.Outcome.next (hostCommand_ok ha (calcBody_noop Config.params s hn))

/-- Settles O32: the body of CALC answers the fault for a malformed block and `afterCalc` for any other. -/
theorem calcMalformedBlockFaults : Obligations.CalcMalformedBlockFaults := by
  intro s b rest ha hz hf hp
  refine ⟨fun ⟨hmoves, hcount⟩ => ?_, fun hgood => ?_⟩
  · have hbody := calcBody_bad Config.params s b rest hf hp ⟨(moves_iff b).2 hmoves, hcount⟩
    exact congrArg Host.Outcome.next (hostCommand_error ha hz hbody)
  · exact ⟨_, execCalc_good ha hf hp hgood, ha.1, rfl, rfl, rfl⟩

/-! ### The values of one axis -/

section
variable (K : Params) (s : State) (b : Block) (a : Axis)

@[simp] theorem buildSegment_acc :
    (buildSegment K s b).acc.get a = (axisProfile K s.snap b a).acc := PerAxis.get_ofFn _ a

@[simp] theorem buildSegment_vstart :
    (buildSegment K s b).vstart.get a = (axisProfile K s.snap b a).vstart := PerAxis.get_ofFn _ a

@[simp] theorem buildSegment_vmax :
    (buildSegment K s b).vmax.get a = (axisProfile K s.snap b a).vmax := PerAxis.get_ofFn _ a

@[simp] theorem buildSegment_vstop :
    (buildSegment K s b).vstop.get a = (axisProfile K s.snap b a).vstop := PerAxis.get_ofFn _ a

@[simp] theorem buildSegment_target : (buildSegment K s b).target.get a = axisTarget s b a :=
  PerAxis.get_ofFn _ a

variable {b a}

/-- An axis without steps carries the snapshot's values (42_segment_calculator.md R174). -/
theorem axisProfile_still (snap : Snapshot) (h : b.steps.get a = 0#32) : axisProfile K snap b a
    = ⟨snap.acc.get a, snap.vstart.get a, snap.vmax.get a, snap.vstop.get a⟩ := if_pos h

/-- An axis with steps has its share of the block's rates, the initial one not above the nominal one
(42_segment_calculator.md R175 to R177). -/
theorem axisProfile_moving (snap : Snapshot) (h : b.steps.get a ≠ 0#32) : axisProfile K snap b a
    = { acc := axisAcc K a (axisRatio (b.steps.get a) b.eventCount) b.accel
        vstart := umin (axisSpeed (axisRatio (b.steps.get a) b.eventCount) b.initialRate)
          (axisSpeed (axisRatio (b.steps.get a) b.eventCount) b.nominalRate)
        vmax := axisSpeed (axisRatio (b.steps.get a) b.eventCount) b.nominalRate
        vstop := boundFinal K a (axisSpeed (axisRatio (b.steps.get a) b.eventCount) b.finalRate) } :=
  if_neg h

theorem axisTarget_still (h : b.steps.get a = 0#32) : axisTarget s b a = s.snap.target.get a := if_pos h

theorem axisTarget_moving (h : b.steps.get a ≠ 0#32) : axisTarget s b a = movedPos s.dirmult s.pos b a :=
  if_neg h

theorem posAfter_still (h : b.steps.get a = 0#32) : (posAfter b s).get a = s.pos.get a := by
  rw [posAfter, PerAxis.get_ofFn, if_pos h]

theorem posAfter_moving (h : b.steps.get a ≠ 0#32) :
    (posAfter b s).get a = movedPos s.dirmult s.pos b a := by
  rw [posAfter, PerAxis.get_ofFn, if_neg h]

variable {K}

theorem boundFinal_noCeiling (ve : Word) (h : K.vstopMax.get a = none) :
    (boundFinal K a ve).toNat = max ve.toNat (K.vstopMin.get a).toNat := by
  simp only [boundFinal, h, umax_toNat]

theorem boundFinal_ceiling (ve : Word) {m : Word} (h : K.vstopMax.get a = some m) :
    (boundFinal K a ve).toNat = min (max ve.toNat (K.vstopMin.get a).toNat) m.toNat := by
  simp only [boundFinal, h, umin_toNat, umax_toNat]

theorem boundFinal_le_ceiling (ve : Word) {m : Word} (h : K.vstopMax.get a = some m) :
    boundFinal K a ve ≤ m := by
  rw [BitVec.le_def, boundFinal_ceiling ve h]
  exact Nat.min_le_right _ _

/-- The ceiling does not undo the floor, being above it (00_scope.md R10). -/
theorem floor_le_boundFinal (ve : Word) (h : Params.ceilingOk (K.vstopMin.get a) (K.vstopMax.get a) = true) :
    K.vstopMin.get a ≤ boundFinal K a ve := by
  rw [BitVec.le_def]
  cases hm : K.vstopMax.get a with
  | none =>
    rw [boundFinal_noCeiling ve hm]
    exact Nat.le_max_right _ _
  | some m =>
    have hle : K.vstopMin.get a ≤ m := by simpa [hm, Params.ceilingOk] using h
    rw [boundFinal_ceiling ve hm]
    exact Nat.le_min.2 ⟨Nat.le_max_right _ _, hle⟩

theorem axisAcc_ne_zero (ratio accel : Word) (h : K.accMin.get a ≠ 0#32) :
    axisAcc K a ratio accel ≠ 0#32 := by
  unfold axisAcc
  dsimp only
  split
  · exact h
  · assumption

theorem umin_le_right (v w : Word) : umin v w ≤ w := by
  rw [BitVec.le_def, umin_toNat]
  exact Nat.min_le_right _ _

end

/-- Settles O33: the snapshot after CALC holds the axis's profile. -/
theorem movingAxisBounds : Obligations.MovingAxisBounds := by
  intro s t b rest a ha hf hp hcount hsteps he
  rw [execCalc_good ha hf hp (.inr hcount)] at he
  obtain rfl := Host.Outcome.next.inj he
  simp only [afterCalc, Segment.snapshot, buildSegment_acc, buildSegment_vstart, buildSegment_vmax,
    buildSegment_vstop, axisProfile_moving _ _ hsteps]
  exact ⟨axisAcc_ne_zero _ _ (accMin_ne_zero a), floor_le_boundFinal _ (vstop_ceilingOk a),
    fun m => boundFinal_le_ceiling _, umin_le_right _ _⟩

/-- A full share of the step events is 1 in Q16, while the shifted steps fit a word
(42_segment_calculator.md R175). -/
theorem axisRatio_self {steps : Word} (hne : steps ≠ 0#32) (hlt : steps.toNat < 65536) :
    axisRatio steps steps = 65536#32 := by
  have hpos : 0 < steps.toNat := Nat.pos_of_ne_zero fun h => hne (BitVec.eq_of_toNat_eq h)
  have hfit : steps.toNat * 65536 < 2 ^ 32 := by omega
  apply BitVec.eq_of_toNat_eq
  calc (axisRatio steps steps).toNat
      = steps.toNat * 65536 % 2 ^ 32 / steps.toNat := by
        simp [axisRatio, Config.q, Nat.shiftLeft_eq]
    _ = 65536 := by rw [Nat.mod_eq_of_lt hfit, Nat.mul_div_cancel_left _ hpos]

/-- The product of a rate with 1 in Q16 wraps at 32 bits, which leaves the rate's low half
(42_segment_calculator.md R177, R186). -/
theorem axisSpeed_fullShare (rate : Word) : (axisSpeed 65536#32 rate).toNat = rate.toNat % 65536 := by
  have hmul : (axisSpeed 65536#32 rate).toNat = 65536 * rate.toNat % 2 ^ 32 / 65536 := by
    simp [axisSpeed, Config.q, Nat.shiftRight_eq_div_pow]
  omega

/-- Settles O34: a full share is 1 in Q16, and the product with it keeps a rate's low half. -/
theorem fullShareSpeed : Obligations.FullShareSpeed := by
  intro steps rate hne hlt
  rw [axisRatio_self hne hlt]
  exact ⟨rfl, axisSpeed_fullShare rate⟩

/-! ### A still axis after SETPOS -/

/-- On a well-formed ring the segment stands in the slot at the head (42_segment_calculator.md R183). -/
theorem afterCalc_slot_head {K : Params} {s : State} (hs : ringWf K s) (b : Block) (rest : List Block) :
    (afterCalc K b rest s).slot s.head = buildSegment K s b := by
  obtain ⟨hlen, hhead, _⟩ := hs
  simp [State.slot, afterCalc, List.getD, hlen, hhead]

/-- Settles O35: SETPOS writes the counter alone, and CALC carries a still axis's target from the snapshot. -/
theorem setposLeavesCarriedTarget : Obligations.SetposLeavesCarriedTarget := by
  intro s a b rest ha hf hw hp hstill hgood
  refine ⟨_, _, execSetpos_accepted a ha,
    execCalc_good (s := { s with pos := s.pos.set a s.arg0 }) ha hf hp hgood, ?_, ?_⟩
  · rw [afterCalc_slot_head (s := { s with pos := s.pos.set a s.arg0 }) hw, buildSegment_target,
      axisTarget_still _ hstill]
  · calc (posAfter b { s with pos := s.pos.set a s.arg0 }).get a
        = (s.pos.set a s.arg0).get a := posAfter_still _ hstill
      _ = s.arg0 := PerAxis.get_set_self _ _ _

/-! ### The duration -/

/-- The correction and the clamp of the three phases (42_segment_calculator.md R181). -/
theorem duration_toNat (K : Params) (b : Block) : (duration K b).toNat
    = min ((phaseTime K (b.nominalRate.toNat - b.initialRate.toNat) b.accel.toNat
          + phaseTime K (b.decelAfter.toNat - b.accelUntil.toNat) b.nominalRate.toNat
          + phaseTime K (b.nominalRate.toNat - b.finalRate.toNat) b.accel.toNat)
        * K.corrNum / K.corrDen) 0xFFFFFFFF := by
  simp only [duration, clamp32_toNat, satsub_eq]

/-- The zero divisor needs no case of its own: division by 0 is 0 in `ℕ`. -/
theorem phaseTime_eq_div (K : Params) (delta divisor : ℕ) :
    phaseTime K delta divisor = delta * K.timeUnit / divisor := by
  unfold phaseTime
  split
  next h => rw [h, Nat.div_zero]
  next => rfl

/-- Flooring a quotient loses less than 1 and never gains, a zero divisor included. -/
theorem natDiv_bounds (m n : ℕ) : ((m / n : ℕ) : ℚ) ≤ (m : ℚ) / n ∧ (m : ℚ) / n < (m / n : ℕ) + 1 := by
  rw [← Nat.floor_div_eq_div (K := ℚ) m n]
  exact ⟨Nat.floor_le (by positivity), Nat.lt_floor_add_one _⟩

/-- Settles O30: each of the three floors of the phases loses less than 1, and so does the correction's. -/
theorem durationRoundingBound : Obligations.DurationRoundingBound := by
  intro K b _ phases unfloored
  obtain ⟨hA, hA'⟩ := natDiv_bounds ((b.nominalRate.toNat - b.initialRate.toNat) * K.timeUnit) b.accel.toNat
  obtain ⟨hC, hC'⟩ := natDiv_bounds ((b.decelAfter.toNat - b.accelUntil.toNat) * K.timeUnit)
    b.nominalRate.toNat
  obtain ⟨hD, hD'⟩ := natDiv_bounds ((b.nominalRate.toNat - b.finalRate.toNat) * K.timeUnit) b.accel.toNat
  obtain ⟨hcorr, hcorr'⟩ := natDiv_bounds (phases * K.corrNum) K.corrDen
  have hdur : (duration K b).toNat = min (phases * K.corrNum / K.corrDen) 0xFFFFFFFF := by
    simp only [duration_toNat, phaseTime_eq_div, phases]
  have hle : (phases : ℚ) ≤ unfloored := by
    simp only [phases, unfloored]
    push_cast at hA hC hD ⊢
    linarith
  have hlt : unfloored < phases + 3 := by
    simp only [phases, unfloored]
    push_cast at hA' hC' hD' ⊢
    linarith
  push_cast at hcorr hcorr'
  refine ⟨hle, hlt, hdur, ?_, fun hsmall => ?_⟩
  · calc ((duration K b).toNat : ℚ)
        ≤ (phases * K.corrNum / K.corrDen : ℕ) := by
          rw [hdur]; exact_mod_cast Nat.min_le_left _ _
      _ ≤ phases * K.corrNum / K.corrDen := hcorr
      _ ≤ unfloored * K.corrNum / K.corrDen := by gcongr
  · have hnoclamp : (duration K b).toNat = phases * K.corrNum / K.corrDen := by omega
    calc unfloored * K.corrNum / K.corrDen
        ≤ (phases + 3) * K.corrNum / K.corrDen := by gcongr
      _ = phases * K.corrNum / K.corrDen + 3 * (K.corrNum : ℚ) / K.corrDen := by ring
      _ < (duration K b).toNat + 3 * (K.corrNum : ℚ) / K.corrDen + 1 := by
        rw [hnoclamp]; linarith

/-! ### The whole segment -/

/-- Settles O29: the segment is `buildSegment`, the counters are `posAfter`. -/
theorem calcBuildsSegment : Obligations.CalcBuildsSegment := by
  intro s b rest ha hf hp hgood
  refine ⟨buildSegment Config.params s b, posAfter b s, execCalc_good ha hf hp hgood, rfl, rfl,
    duration_toNat _ b, fun a hstill => ?_, fun a hmoves => ?_⟩
  · simp only [buildSegment_acc, buildSegment_vstart, buildSegment_vmax, buildSegment_vstop,
      buildSegment_target, axisProfile_still _ _ hstill, axisTarget_still _ hstill, posAfter_still _ hstill,
      and_self]
  · simp only [buildSegment_acc, buildSegment_vstart, buildSegment_vmax, buildSegment_vstop,
      buildSegment_target, axisProfile_moving _ _ hmoves, axisTarget_moving _ hmoves,
      posAfter_moving _ hmoves, and_true]
    refine ⟨rfl, rfl, umin_toNat _ _, ?_, rfl⟩
    split
    next h => exact boundFinal_noCeiling _ h
    next m h => exact boundFinal_ceiling _ h

end Sys2Proof.Machine
end

section
/-! SUPPORT. The dispatch interrupt (43_dispatch_interrupt.md R200 to R207): the handler in each of its states, the
frames of a dispatch, the firings that consume a countdown, and what the handler neither reads nor writes. -/

namespace Sys2Proof.Machine

/-! ### The states Waiting and Idle -/

theorem idle_iff (s : State) : s.handlerState = .idle ↔
    s.countdown = 0#32 ∧ (s.ringEmpty = true ∨ (s.slot s.tail).ready = false) := by
  rcases handlerState_cases s with ⟨hc, h⟩ | ⟨hc, hr, h⟩ | ⟨_, he, hr, h⟩
  · simp [h, hc]
  · simp [h, hc, hr]
  · simp [h, he, hr]

/-- Settles O36: the chunk is the smaller of the countdown and `Config.chunkMax`. -/
theorem waitingRearmsTimer : Obligations.WaitingRearmsTimer := fun s ht hc =>
  ⟨umin s.countdown Config.chunkMax, umin_toNat _ _,
    congrArg Host.Outcome.next (interruptStep_waiting _ s ht hc)⟩

/-- Settles O37: both cases are the state Idle of 10_state.md R26. -/
theorem idlePollsAgain : Obligations.IdlePollsAgain := fun s ht hc hr =>
  have hidle : s.handlerState = .idle := (idle_iff s).2 ⟨hc, hr.imp_left (ringEmpty_iff s).2⟩
  congrArg Host.Outcome.next (interruptStep_idle _ s ht hidle)

/-! ### The frames of a dispatch -/

/-- What a register write sends (40_bus_transport.md R134). -/
def RegWrite.sent (K : Params) (w : RegWrite) : Sent := sentWrite K w.axis w.reg w.value

/-- Phases 1 and 2 of a dispatch (43_dispatch_interrupt.md R204). -/
def profileWrites (g : Segment) : List RegWrite :=
  (profileAxes g.zflag).flatMap (cruiseWrites g) ++ (profileAxes g.zflag).flatMap (endpointWrites g)

/-- Phase 3 of a dispatch (43_dispatch_interrupt.md R204). -/
def targetWrites (g : Segment) : List RegWrite :=
  (targetAxes g.zflag).map fun a => ⟨a, .xtarget, g.target.get a⟩

theorem dispatchWrites_eq (g : Segment) : dispatchWrites g = profileWrites g ++ targetWrites g := rfl

/-- The frames of R204 are those of the writes of a dispatch. -/
theorem dispatchSent_eq_map (K : Params) (g : Segment) :
    dispatchSent K g = (dispatchWrites g).map (RegWrite.sent K) := by
  unfold dispatchSent dispatchWrites
  cases g.zflag <;> rfl

/-- The frames of a dispatch: 6 for each axis it writes (43_dispatch_interrupt.md R204). -/
theorem length_dispatchSent (K : Params) (g : Segment) :
    (dispatchSent K g).length = if g.zflag then 24 else 18 := by
  unfold dispatchSent
  cases g.zflag <;> rfl

/-- A dispatch releases the select line of every axis it writes. -/
theorem csAfter_dispatchWrites (g : Segment) (cs : PerAxis Bool) :
    csAfter (dispatchWrites g) cs = ⟨false, false, if g.zflag then false else cs.z, false⟩ := by
  unfold dispatchWrites
  cases g.zflag <;> rfl

/-- The last register a dispatch writes of an axis is `XTARGET`. -/
theorem latchAfter_dispatchWrites (K : Params) (g : Segment) (l : PerAxis (Option Byte)) :
    latchAfter K (dispatchWrites g) l =
      ⟨some (K.writeFlag ||| K.devreg .xtarget), some (K.writeFlag ||| K.devreg .xtarget),
        if g.zflag then some (K.writeFlag ||| K.devreg .xtarget) else l.z,
        some (K.writeFlag ||| K.devreg .xtarget)⟩ := by
  unfold dispatchWrites
  cases g.zflag <;> rfl

/-- Settles O38: the step is `interruptStep_dispatch`, with the select lines, the latches and the count of the
frames read off `dispatchWrites`. -/
theorem dispatchWritesSegment : Obligations.DispatchWritesSegment := by
  intro s ht hc hring hready hhome hend
  have hdisp : s.handlerState = .dispatching :=
    (dispatching_iff s).2 ⟨hc, (ringEmpty_eq_false_iff s).2 hring, hready⟩
  have hbusy : s.busy = false := by
    rw [← Bool.not_eq_true, busy_iff]
    exact fun h => h.elim hhome hend
  obtain ⟨evs, hsent, e⟩ := interruptStep_dispatch Config.params s ht hdisp hbusy
  refine ⟨evs, hsent, ?_, congrArg Host.Outcome.next ?_⟩
  · rw [← length_dispatchSent Config.params, ← hsent, List.length_map]
  · rw [e, csAfter_dispatchWrites, latchAfter_dispatchWrites]
    rfl

/-! ### Targets after speeds and accelerations -/

theorem sent_eq_frame_iff (e : Event) (a : Axis) (ab : Byte) (v : Word) :
    e.sent = .frame a ab v ↔ ∃ st d, e = .frame a ab v st d := by
  cases e <;> simp [Event.sent]

/-- Phases 1 and 2 write no target. -/
theorem reg_ne_xtarget_of_mem_profileWrites {g : Segment} {w : RegWrite} (h : w ∈ profileWrites g) :
    w.reg ≠ .xtarget := by
  simp only [profileWrites, cruiseWrites, endpointWrites, List.mem_append, List.mem_flatMap, List.mem_cons,
    List.not_mem_nil, or_false] at h
  rcases h with ⟨_, _, rfl | rfl | rfl⟩ | ⟨_, _, rfl | rfl⟩ <;> exact nofun

theorem mem_targetAxes (z : Bool) (a : Axis) : a ∈ targetAxes z ↔ (a = .z → z = true) := by
  cases z <;> cases a <;> simp [targetAxes]

/-- An event that sends one of certain writes is the frame of one of them. -/
theorem frame_of_mem {K : Params} {evs : List Event} {ws : List RegWrite}
    (h : evs.map Event.sent = ws.map (RegWrite.sent K)) {e : Event} (he : e ∈ evs) :
    ∃ w ∈ ws, ∃ st d, e = .frame w.axis (K.writeFlag ||| K.devreg w.reg) w.value st d := by
  have hmem : e.sent ∈ ws.map (RegWrite.sent K) := h ▸ List.mem_map_of_mem he
  obtain ⟨w, hw, hsent⟩ := List.mem_map.1 hmem
  exact ⟨w, hw, (sent_eq_frame_iff e _ _ _).1 hsent.symm⟩

/-- Every one of certain writes has its frame among the events that send them. -/
theorem exists_frame_of_mem {K : Params} {evs : List Event} {ws : List RegWrite}
    (h : evs.map Event.sent = ws.map (RegWrite.sent K)) {w : RegWrite} (hw : w ∈ ws) :
    ∃ st d, Event.frame w.axis (K.writeFlag ||| K.devreg w.reg) w.value st d ∈ evs := by
  have hmem : w.sent K ∈ evs.map Event.sent := h ▸ List.mem_map_of_mem hw
  obtain ⟨e, he, hsent⟩ := List.mem_map.1 hmem
  obtain ⟨st, d, rfl⟩ := (sent_eq_frame_iff e _ _ _).1 hsent
  exact ⟨st, d, he⟩

/-- The axes whose target phase 3 writes. -/
theorem target_frame_iff {K : Params} {g : Segment} {evs : List Event}
    (h : evs.map Event.sent = (targetWrites g).map (RegWrite.sent K)) (a : Axis) :
    (∃ v st d, Event.frame a (K.writeFlag ||| K.devreg .xtarget) v st d ∈ evs)
      ↔ a ∈ targetAxes g.zflag := by
  constructor
  · rintro ⟨v, st, d, he⟩
    obtain ⟨w, hw, st', d', hframe⟩ := frame_of_mem h he
    obtain ⟨b, hb, rfl⟩ := List.mem_map.1 hw
    obtain ⟨rfl, _⟩ := Event.frame.inj hframe
    exact hb
  · exact fun ha => ⟨_, exists_frame_of_mem h (List.mem_map_of_mem ha)⟩

/-- Settles O41: the events are cut where phase 3 begins; no register of phases 1 and 2 has the address of
`XTARGET`. -/
theorem targetsWrittenLast : Obligations.TargetsWrittenLast := by
  intro s t ht hc hring hready hop hstep
  obtain ⟨evs, hsent, _, hexec⟩ :=
    dispatchWritesSegment s ht hc hring hready (by simp [hop]) (by simp [hop])
  obtain rfl := Host.Outcome.next.inj (hexec.symm.trans hstep)
  rw [dispatchSent_eq_map, dispatchWrites_eq, List.map_append] at hsent
  obtain ⟨before, targets, rfl, hbefore, htargets⟩ := List.map_eq_append_iff.1 hsent
  refine ⟨before, targets, (List.append_assoc _ _ _).symm, fun e he => ?_, fun e he => ?_, fun a => ?_⟩
  · obtain ⟨w, hw, st, d, rfl⟩ := frame_of_mem hbefore he
    exact ⟨_, _, _, st, d, rfl, writeAddress_ne_xtarget _ (reg_ne_xtarget_of_mem_profileWrites hw)⟩
  · obtain ⟨w, hw, st, d, rfl⟩ := frame_of_mem htargets he
    obtain ⟨a, _, rfl⟩ := List.mem_map.1 hw
    exact ⟨a, _, st, d, rfl⟩
  · exact (target_frame_iff htargets a).trans (mem_targetAxes _ a)

/-! ### The firings that consume a countdown -/

/-- A compare event and the interrupt it raises (60_exceptions.md R278, R279). -/
def firing (K : Params) (s : State) : State := interruptStep K (timerStep s)

/-- A compare event may occur, and its interrupt is then taken (60_exceptions.md R278, R279). -/
def firingEnabled (s : State) : Prop :=
  s.timerRuns = true ∧ s.tmr.tie = true ∧ s.gie = true ∧ s.csDepth = 0 ∧ s.inIsr = false

/-- A firing in state Waiting rearms the timer, whether an event was pending before or not. -/
theorem firing_waiting (K : Params) {s : State} (hs : firingEnabled s) (hc : s.countdown ≠ 0#32) :
    firing K s = afterRearm s := by
  obtain ⟨hrun, htie, hgie, hdepth, hisr⟩ := hs
  have hfaults : s.faults = [] := (not_faulted_iff s).1 (by simpa using (Bool.and_eq_true_iff.1 hrun).2)
  have hstep : timerStep s = { s with tmr := { s.tmr with pending := true } } := if_pos hrun
  rw [firing, hstep]
  exact interruptStep_afterRearm K ⟨rfl, htie, hgie, hdepth, hisr, hfaults⟩ hc

/-- A countdown of at least a full chunk loses a full chunk. -/
theorem afterRearm_fullChunk {s : State} (h : 0xFFFF ≤ s.countdown.toNat) :
    (afterRearm s).countdown.toNat + 0xFFFF = s.countdown.toNat
    ∧ (afterRearm s).trace = s.trace ++ [.timerSet 0xFFFF#16] := by
  have hchunk : umin s.countdown Config.chunkMax = 0xFFFF#32 :=
    BitVec.eq_of_toNat_eq ((umin_toNat _ _).trans (Nat.min_eq_right h))
  simp only [afterRearm, hchunk]
  exact ⟨by bv_omega, rfl⟩

/-- A countdown of at most a full chunk is used up. -/
theorem afterRearm_rest {s : State} (h : s.countdown.toNat ≤ 0xFFFF) :
    (afterRearm s).countdown = 0#32
    ∧ (afterRearm s).trace = s.trace ++ [.timerSet (BitVec.ofNat 16 s.countdown.toNat)] := by
  have hchunk : umin s.countdown Config.chunkMax = s.countdown :=
    BitVec.eq_of_toNat_eq ((umin_toNat _ _).trans (Nat.min_eq_left h))
  simp [afterRearm, hchunk]

/-- As many firings as the countdown has full chunks, or fewer, program and take a full chunk each. -/
theorem firing_iterate (K : Params) {s : State} (hs : firingEnabled s) (k : Nat)
    (hk : k * 0xFFFF ≤ s.countdown.toNat) :
    firingEnabled ((firing K)^[k] s)
    ∧ ((firing K)^[k] s).countdown.toNat + k * 0xFFFF = s.countdown.toNat
    ∧ ((firing K)^[k] s).trace = s.trace ++ List.replicate k (.timerSet 0xFFFF#16) := by
  induction k with
  | zero => exact ⟨hs, by simp, (List.append_nil _).symm⟩
  | succ k ih =>
    rw [Nat.succ_mul] at hk ⊢
    obtain ⟨hen, hcount, htrace⟩ := ih (Nat.le_of_add_right_le hk)
    rw [Function.iterate_succ_apply']
    generalize (firing K)^[k] s = u at hen hcount htrace
    have hchunk : 0xFFFF ≤ u.countdown.toNat := by omega
    obtain ⟨hcount', htrace'⟩ := afterRearm_fullChunk hchunk
    rw [firing_waiting K hen (by intro hz; simp [hz] at hchunk)]
    refine ⟨hen, by rw [Nat.add_comm (k * 0xFFFF), ← Nat.add_assoc, hcount', hcount], ?_⟩
    rw [htrace', htrace, List.append_assoc, List.replicate_succ']

/-- Settles O42: `firing_iterate` for the full chunks, and one firing more for the rest. -/
theorem countdownConsumedInChunks : Obligations.CountdownConsumedInChunks := by
  intro K s hrun htie hgie hdepth hisr f q r
  have hfiring : f = firing K := rfl
  obtain ⟨hen, hcount, htrace⟩ :=
    firing_iterate K ⟨hrun, htie, hgie, hdepth, hisr⟩ q (Nat.div_mul_le_self _ _)
  have hr : ((firing K)^[q] s).countdown.toNat = r := by omega
  rw [hfiring, Function.iterate_succ_apply']
  refine ⟨hr, htrace, fun hne => ?_⟩
  have hwait : ((firing K)^[q] s).countdown ≠ 0#32 := fun hz => hne (by rw [← hr, hz]; rfl)
  obtain ⟨hzero, hlast⟩ := afterRearm_rest (s := (firing K)^[q] s) (by omega)
  rw [firing_waiting K hen hwait]
  exact ⟨hzero, by rw [hlast, htrace, hr]⟩

/-! ### What the handler neither reads nor writes -/

section
variable (K : Params) (pos : PerAxis Word) (dir : PerAxis Sign) (snap : Snapshot) (plan : List Block)

/-- `s` with other position counters, direction multipliers, snapshot and planner's queue. -/
def replaced (s : State) : State := { s with pos := pos, dirmult := dir, snap := snap, plan := plan }

theorem writeAll_replaced (ws : List RegWrite) (s : State) :
    writeAll K ws (replaced pos dir snap plan s) = replaced pos dir snap plan (writeAll K ws s) := by
  induction ws generalizing s with
  | nil => rfl
  | cons w ws ih => exact ih (devWrite K w.axis w.reg w.value s)

theorem rbDiscard_replaced (s : State) :
    rbDiscard K (replaced pos dir snap plan s) = (rbDiscard K s).map (replaced pos dir snap plan) := by
  rcases rbDiscard_cases K s with ⟨he, h⟩ | ⟨he, h⟩
  · rw [h]; exact if_pos he
  · rw [h]; exact if_neg (Bool.eq_false_iff.1 he)

theorem dispatchTail_replaced (s : State) :
    dispatchTail K (replaced pos dir snap plan s) = (dispatchTail K s).map (replaced pos dir snap plan) := by
  unfold dispatchTail
  rw [show (replaced pos dir snap plan s).busy = s.busy from rfl]
  split
  · rfl
  · dsimp only
    rw [writeAll_replaced]
    exact rbDiscard_replaced K pos dir snap plan (writeSlot s.tail { s.slot s.tail with ready := false }
      { writeAll K (dispatchWrites (s.slot s.tail)) s with countdown := (s.slot s.tail).duration })

theorem handlerBody_replaced (s : State) :
    handlerBody K (replaced pos dir snap plan s) = (handlerBody K s).map (replaced pos dir snap plan) := by
  unfold handlerBody
  rw [show (replaced pos dir snap plan s).handlerState = s.handlerState from rfl]
  cases s.handlerState with
  | waiting | idle => rfl
  | dispatching => exact dispatchTail_replaced K pos dir snap plan s

theorem onTimerCompare_replaced (s : State) :
    onTimerCompare K (replaced pos dir snap plan s)
      = (onTimerCompare K s).map (replaced pos dir snap plan) := by
  have hbody := handlerBody_replaced K pos dir snap plan (enterInterrupt s)
  change handlerBody K (enterInterrupt (replaced pos dir snap plan s)) = _ at hbody
  unfold onTimerCompare
  rw [hbody]
  cases handlerBody K (enterInterrupt s) <;> rfl

theorem settle_replaced (s : State) (r : Except FaultCode State) :
    settle (replaced pos dir snap plan s) (r.map (replaced pos dir snap plan))
      = replaced pos dir snap plan (settle s r) := by
  cases r <;> rfl

end

/-- Settles O44: the handler's parts commute with `replaced`. -/
theorem handlerIgnoresPositions : Obligations.HandlerIgnoresPositions := by
  intro K s pos dir snap plan
  change interruptStep K (replaced pos dir snap plan s) = replaced pos dir snap plan (interruptStep K s)
  unfold interruptStep
  rw [show (replaced pos dir snap plan s).interruptTakeable = s.interruptTakeable from rfl]
  split
  · rw [onTimerCompare_replaced, settle_replaced]
  · rfl

end Sys2Proof.Machine
end

section
/-! SUPPORT. The homing sequencer (44_homing.md): its issue, the rows of its phase table, and what a homing sends
from its first phase to its end. -/

namespace Sys2Proof.Machine

/-! ### The issue of HOME -/

/-- `(Vh, R, seek, thr)` of 44_homing.md R222, whatever the speed. -/
def homeParamsFor (K : Params) (a : Axis) (f : Word) : HomeParams where
  vh := K.toVel a f
  retract := if K.homeDir.get a = .minus then K.toSteps a (K.bumpDist.get a)
    else 0#32 - K.toSteps a (K.bumpDist.get a)
  seek := if K.homeDir.get a = .minus then K.modeVelNeg else K.modeVelPos
  thr := if K.stallHoming.get a then stallThreshold K (K.toVel a f) else 0#32

/-- The parameters are those of R222 but for stall-based homing at speed 0 (44_homing.md R222, R223). -/
theorem homeParamsOf_eq (K : Params) (a : Axis) (f : Word) : homeParamsOf K a f =
    if K.stallHoming.get a = true ∧ K.toVel a f = 0#32 then .error .homeZeroSpeed
    else .ok (homeParamsFor K a f) := by
  cases hs : K.stallHoming.get a <;> simp [homeParamsOf, homeParamsFor, hs]

/-- Settles O46: the issue step keeps the parameters that `homeParamsOf_eq` gives, or has its fault. -/
theorem homeIssue : Obligations.HomeIssue := by
  refine fun a s ha => ⟨rfl, fun K => ⟨fun hok => ?_, fun hstall hzero hfirst => ?_⟩⟩
  · refine hostCommand_ok ha ?_
    rw [homeBody, homeParamsOf_eq, if_neg hok]
    rfl
  · refine hostCommand_error ha hfirst ?_
    rw [homeBody, homeParamsOf_eq, if_pos ⟨hstall, hzero⟩]
    rfl

/-! ### The rows of the phase table -/

section
variable {K : Params} {a : Axis} {p : HomeParams} {ph next : HomePhase} {s : State}

/-- While HOME is in progress the foreground unit takes its steps (10_state.md R25). -/
theorem foregroundStep_homing (h : homing s a p ph) : foregroundStep K s = homeStep K a p s := by
  obtain ⟨hf, hop, ha, hp, -⟩ := h
  simp [foregroundStep, foregroundBody, (not_faulted_iff s).2 hf, hop, ha, hp]

/-- A phase of one register write sends its frame; the phase that zeroes the target zeroes the counter too
(44_homing.md R220, R233). -/
theorem foregroundStep_writeRow (h : homing s a p ph) {r : DevReg} {v : Word}
    (hrow : homeWriteRow K a p ph = some (r, v, next)) : foregroundStep K s = { s with
      homePhase := next
      pos := if ph = .tZeroTgt then s.pos.set a 0#32 else s.pos
      cs := s.cs.set a false
      devLatch := s.devLatch.set a (some (K.writeFlag ||| K.devreg r))
      fresh := s.fresh + 1
      trace := s.trace ++ [frameOf K a (K.writeFlag ||| K.devreg r) v s] } := by
  rw [foregroundStep_homing h]
  obtain ⟨-, -, -, -, hph⟩ := h
  cases ph with
  | idle | swEnable | seekPoll | seekYield | retPoll | retYield | done => cases hrow
  | _ => cases hrow; simp [homeStep, hph, devWrite_eq, homeSetPos_eq, toPhase]

/-- A phase of one event that no device sees puts it in the trace (44_homing.md R220). -/
theorem foregroundStep_eventRow (h : homing s a p ph) {e : Event}
    (hrow : homeEventRow a ph = some (e, next)) :
    foregroundStep K s = { s with homePhase := next, trace := s.trace ++ [e] } := by
  rw [foregroundStep_homing h]
  obtain ⟨-, -, -, -, hph⟩ := h
  cases ph with
  | swEnable | seekYield | retYield => cases hrow; simp [homeStep, hph, toPhase, emit]
  | _ => cases hrow

/-- A poll is one frame of its read; the second has the way on (44_homing.md R220, R229). -/
theorem foregroundStep_pollRow (h : homing s a p ph) {stopped moving : HomePhase}
    (hrow : homePollRow K a ph = some (stopped, moving)) : foregroundStep K s = { s with
      homePhase :=
        if s.readPend = some ⟨a, K.devreg .rampStat⟩
        then (if frameAnswer K a s &&& K.vzeroMask ≠ 0#32 then stopped else moving) else ph
      readPend :=
        if s.readPend = some ⟨a, K.devreg .rampStat⟩ then none else some ⟨a, K.devreg .rampStat⟩
      cs := s.cs.set a false
      devLatch := s.devLatch.set a (some (K.devreg .rampStat))
      fresh := s.fresh + 1
      trace := s.trace ++ [frameOf K a (K.devreg .rampStat) 0#32 s] } := by
  rw [foregroundStep_homing h]
  obtain ⟨-, -, -, -, hph⟩ := h
  have hpoll : homeStep K a p s = homePoll K a stopped moving s := by
    cases ph with
    | seekPoll | retPoll => cases hrow; simp [homeStep, hph, afterRetract]
    | _ => cases hrow
  rw [hpoll, homePoll_eq, busReadSecond_eq, busReadFirst_eq, ← hph]
  split <;> rfl

/-- The last phase writes the retract position and ends the command (44_homing.md R220). -/
theorem foregroundStep_done (h : homing s a p .done) : foregroundStep K s = { s with
    homePhase := .idle, fgOp := none, homeAxis := none, homeParams := none
    pos := s.pos.set a p.retract } := by
  rw [foregroundStep_homing h]
  obtain ⟨-, -, -, -, hph⟩ := h
  simp [homeStep, hph, homeFinish, homeSetPos_eq]

end

/-- Settles O47: the rows of R220 by their kind; the rows of one event are those of `homeEventRow`. -/
theorem homePhaseTable : Obligations.HomePhaseTable := by
  intro K a p ph s h st din pend
  refine ⟨fun r v next hrow => foregroundStep_writeRow h hrow,
    fun stopped moving hrow => foregroundStep_pollRow h hrow, ?_, ?_, ?_, ?_⟩
  · rintro rfl; exact foregroundStep_eventRow h rfl
  · rintro rfl; exact foregroundStep_eventRow h rfl
  · rintro rfl; exact foregroundStep_eventRow h rfl
  · rintro rfl; exact foregroundStep_done h

end Sys2Proof.Machine
end

section
/-! SUPPORT. What a homing sends from its first phase to its end, and what one sends that never ends (44_homing.md
R224 to R236). Up to `H_DONE` every foreground step sends one thing, so a run is as long as the list it sends. -/

namespace Sys2Proof.Machine

/-! ### Runs of a homing -/

/-- Where a homing stands between two reads: its phase, the number of the next free value, the counters. -/
structure HomePlace where
  phase : HomePhase
  draws : Nat
  pos : PerAxis Word

/-- HOME on axis `a` with parameters `p` stands at place `c`, and no read is open. -/
structure HomePlace.Holds (a : Axis) (p : HomeParams) (c : HomePlace) (s : State) : Prop where
  homing : homing s a p c.phase
  readPend : s.readPend = none
  fresh : s.fresh = c.draws
  pos : s.pos = c.pos

/-- From `s` to `t` the block sent `l`, and neither a direction multiplier nor the snapshot changed. -/
structure Sends (l : List Sent) (s t : State) : Prop where
  dirmult : t.dirmult = s.dirmult
  snap : t.snap = s.snap
  trace : ∃ evs : List Event, t.trace = s.trace ++ evs ∧ evs.map Event.sent = l

theorem Sends.trans {l m : List Sent} {s t u : State} (h : Sends l s t) (h' : Sends m t u) :
    Sends (l ++ m) s u := by
  obtain ⟨evs, htrace, hsent⟩ := h.trace
  obtain ⟨evs', htrace', hsent'⟩ := h'.trace
  refine ⟨h'.dirmult.trans h.dirmult, h'.snap.trans h.snap, evs ++ evs', ?_, ?_⟩
  · rw [htrace', htrace, List.append_assoc]
  · rw [List.map_append, hsent, hsent']

/-- From place `c` a homing sends `l`, one foreground step for each member, and then stands at place `c'`. -/
def Leads (K : Params) (a : Axis) (p : HomeParams) (l : List Sent) (c c' : HomePlace) : Prop :=
  ∀ s, c.Holds a p s →
    c'.Holds a p ((foregroundStep K)^[l.length] s) ∧ Sends l s ((foregroundStep K)^[l.length] s)

section
variable {K : Params} {a : Axis} {p : HomeParams} {l m : List Sent} {ph next stopped moving : HomePhase}
  {f : Nat} {q : PerAxis Word}

theorem Leads.refl (c : HomePlace) : Leads K a p [] c c := fun _ h => ⟨h, rfl, rfl, [], by simp, rfl⟩

theorem Leads.trans {c c' c'' : HomePlace} (h : Leads K a p l c c') (h' : Leads K a p m c' c'') :
    Leads K a p (l ++ m) c c'' := by
  intro s hs
  obtain ⟨ht, hl⟩ := h s hs
  obtain ⟨hu, hm⟩ := h' _ ht
  rw [List.length_append, Nat.add_comm, Function.iterate_add_apply]
  exact ⟨hu, hl.trans hm⟩

/-- A phase of one register write takes one free value (44_homing.md R220, R233). -/
theorem leads_write {r : DevReg} {v : Word} (hrow : homeWriteRow K a p ph = some (r, v, next)) :
    Leads K a p [sentWrite K a r v] ⟨ph, f, q⟩
      ⟨next, f + 1, if ph = .tZeroTgt then q.set a 0#32 else q⟩ := by
  intro s h
  change HomePlace.Holds a p _ (foregroundStep K s) ∧ Sends _ s (foregroundStep K s)
  rw [foregroundStep_writeRow h.homing hrow]
  obtain ⟨⟨hf, ho, ha, hp, -⟩, hr, rfl, rfl⟩ := h
  exact ⟨⟨⟨hf, ho, ha, hp, rfl⟩, hr, rfl, rfl⟩, rfl, rfl, _, rfl, rfl⟩

/-- A phase of one event takes no free value. -/
theorem leads_event {e : Event} (hrow : homeEventRow a ph = some (e, next)) :
    Leads K a p [e.sent] ⟨ph, f, q⟩ ⟨next, f, q⟩ := by
  intro s h
  change HomePlace.Holds a p _ (foregroundStep K s) ∧ Sends _ s (foregroundStep K s)
  rw [foregroundStep_eventRow h.homing hrow]
  obtain ⟨⟨hf, ho, ha, hp, -⟩, hr, hn, hq⟩ := h
  exact ⟨⟨⟨hf, ho, ha, hp, rfl⟩, hr, hn, hq⟩, rfl, rfl, _, rfl, rfl⟩

theorem Leads.write {r : DevReg} {v : Word} {c : HomePlace}
    (hrow : homeWriteRow K a p ph = some (r, v, next))
    (h : Leads K a p l ⟨next, f + 1, if ph = .tZeroTgt then q.set a 0#32 else q⟩ c) :
    Leads K a p (sentWrite K a r v :: l) ⟨ph, f, q⟩ c := (leads_write hrow).trans h

theorem Leads.event {e : Event} {c : HomePlace} (hrow : homeEventRow a ph = some (e, next))
    (h : Leads K a p l ⟨next, f, q⟩ c) : Leads K a p (e.sent :: l) ⟨ph, f, q⟩ c :=
  (leads_event hrow).trans h

/-! ### Polls -/

/-- The way on from a poll whose second frame takes free value number `n` (44_homing.md R229). -/
def pollWay (K : Params) (a : Axis) (n : Nat) (stopped moving : HomePhase) : HomePhase :=
  if K.oracle n a (K.devreg .rampStat &&& 0x7F#8) &&& K.vzeroMask ≠ 0#32 then stopped else moving

theorem pollWay_stopped {n : Nat} (h : stoppedAt K a n) : pollWay K a n stopped moving = stopped := if_pos h

theorem pollWay_moving {n : Nat} (h : ¬ stoppedAt K a n) : pollWay K a n stopped moving = moving := if_neg h

/-- A poll is two frames; the second answers the first, no frame to the chip coming between
(40_bus_transport.md R131, R137; 44_homing.md R229). -/
theorem leads_poll (hrow : homePollRow K a ph = some (stopped, moving)) :
    Leads K a p [sentPoll K a, sentPoll K a] ⟨ph, f, q⟩
      ⟨pollWay K a (f + 1) stopped moving, f + 2, q⟩ := by
  intro s h
  change HomePlace.Holds a p _ (foregroundStep K (foregroundStep K s))
    ∧ Sends _ s (foregroundStep K (foregroundStep K s))
  obtain ⟨hhome, hr, rfl, rfl⟩ := h
  have ⟨hf, ho, ha, hp, _⟩ := hhome
  have hfirst := foregroundStep_pollRow hhome hrow
  rw [hr, if_neg nofun, if_neg nofun] at hfirst
  have hhome' : homing (foregroundStep K s) a p ph := by rw [hfirst]; exact ⟨hf, ho, ha, hp, rfl⟩
  have hanswer : frameAnswer K a (foregroundStep K s)
      = K.oracle (s.fresh + 1) a (K.devreg .rampStat &&& 0x7F#8) := by
    rw [hfirst]
    exact frameAnswer_addressed K (PerAxis.get_set_self _ _ _)
  rw [foregroundStep_pollRow hhome' hrow, hanswer, hfirst, if_pos rfl, if_pos rfl]
  exact ⟨⟨⟨hf, ho, ha, hp, rfl⟩, rfl, rfl, rfl⟩, rfl, rfl, _, List.append_assoc _ _ _, rfl⟩

/-- A round of a loop: a poll that finds the axis moving, and the yield (44_homing.md R230). -/
theorem leads_round (hrow : homePollRow K a ph = some (stopped, moving))
    (hyield : homeEventRow a moving = some (.yield, ph)) (hmoving : ¬ stoppedAt K a (f + 1)) :
    Leads K a p [sentPoll K a, sentPoll K a, .yield] ⟨ph, f, q⟩ ⟨ph, f + 2, q⟩ := by
  have hpoll := leads_poll (p := p) (f := f) (q := q) hrow
  rw [pollWay_moving hmoving] at hpoll
  exact hpoll.trans (leads_event hyield)

/-- As many rounds as polls find the axis moving. -/
theorem leads_rounds (hrow : homePollRow K a ph = some (stopped, moving))
    (hyield : homeEventRow a moving = some (.yield, ph)) (k : Nat)
    (hmoving : ∀ j < k, ¬ stoppedAt K a (f + 2 * j + 1)) :
    Leads K a p (List.replicate k [sentPoll K a, sentPoll K a, .yield]).flatten ⟨ph, f, q⟩
      ⟨ph, f + 2 * k, q⟩ := by
  induction k with
  | zero => exact Leads.refl _
  | succ k ih =>
    rw [List.replicate_succ', List.flatten_concat]
    exact (ih fun j hj => hmoving j (Nat.lt_succ_of_lt hj)).trans
      (leads_round hrow hyield (hmoving k (Nat.lt_succ_self k)))

/-- A loop whose poll number `k` finds the axis stopped (44_homing.md R229, R230). -/
theorem leads_polls (hrow : homePollRow K a ph = some (stopped, moving))
    (hyield : homeEventRow a moving = some (.yield, ph)) {k : Nat}
    (hmoving : ∀ j < k, ¬ stoppedAt K a (f + 2 * j + 1)) (hstopped : stoppedAt K a (f + 2 * k + 1)) :
    Leads K a p (pollsSent K a k) ⟨ph, f, q⟩ ⟨stopped, f + 2 * k + 2, q⟩ := by
  have hpoll := leads_poll (p := p) (f := f + 2 * k) (q := q) hrow
  rw [pollWay_stopped hstopped] at hpoll
  exact (leads_rounds hrow hyield k hmoving).trans hpoll

/-! ### The parts of a homing -/

/-- What the arming phases send (44_homing.md R224, R227). -/
def armingSent (K : Params) (a : Axis) (p : HomeParams) : List Sent :=
  if K.stallHoming.get a then
    [sentWrite K a .gconf (K.cfgGconf.get a &&& ~~~K.smoothMask),
      sentWrite K a .coolconf (K.stallSens.get a), sentWrite K a .tcoolthrs p.thr,
      sentWrite K a .swMode (K.cfgSwmodeStall.get a), sentWrite K a .vmax p.vh,
      sentWrite K a .rampmode p.seek]
  else
    [.driverEnable a, sentWrite K a .vmax p.vh, sentWrite K a .rampmode p.seek,
      sentWrite K a .swMode (K.cfgSwmodeSwitch.get a)]

/-- What the phases between the two loops send (44_homing.md R233). -/
def retractSent (K : Params) (a : Axis) (p : HomeParams) : List Sent :=
  [sentWrite K a .rampmode K.modeHold, sentWrite K a .xactual 0#32, sentWrite K a .xtarget 0#32,
    sentWrite K a .rampmode K.modePosition, sentWrite K a .xtarget p.retract]

/-- What the phases after the retract send (44_homing.md R224, R227). -/
def disarmingSent (K : Params) (a : Axis) : List Sent :=
  if K.stallHoming.get a then [sentWrite K a .gconf (K.cfgGconf.get a ||| K.smoothMask)]
  else [sentWrite K a .swMode (K.cfgSwmodeSwitch.get a), sentWrite K a .rampmode K.modePosition]

theorem homingSent_eq (K : Params) (a : Axis) (p : HomeParams) (k1 k2 : Nat) : homingSent K a p k1 k2
    = armingSent K a p ++ pollsSent K a k1 ++ retractSent K a p ++ pollsSent K a k2 ++ disarmingSent K a :=
  rfl

theorem length_pollsSent (K : Params) (a : Axis) (k : Nat) : (pollsSent K a k).length = 3 * k + 2 := by
  simp [pollsSent, Nat.mul_comm]

/-- One step fewer than the homing takes: its last sends nothing. -/
theorem length_homingSent (K : Params) (a : Axis) (p : HomeParams) (k1 k2 : Nat) :
    (homingSent K a p k1 k2).length + 1 = (if K.stallHoming.get a then 17 else 16) + 3 * (k1 + k2) := by
  simp only [homingSent_eq, List.length_append, length_pollsSent, armingSent, retractSent, disarmingSent]
  cases K.stallHoming.get a <;> simp only [Bool.false_eq_true, if_true, if_false, List.length_cons,
    List.length_nil] <;> omega

theorem leads_arming : Leads K a p (armingSent K a p) ⟨firstPhase K a, f, q⟩
    ⟨.seekPoll, f + armingWrites K a, q⟩ := by
  unfold armingSent firstPhase armingWrites
  cases K.stallHoming.get a with
  | true => exact .write rfl (.write rfl (.write rfl (.write rfl (.write rfl (leads_write rfl)))))
  | false => exact .event (e := .driverEnable a) rfl (.write rfl (.write rfl (leads_write rfl)))

theorem leads_retract : Leads K a p (retractSent K a p) ⟨.tHold, f, q⟩ ⟨.retPoll, f + 5, q.set a 0#32⟩ :=
  .write rfl (.write rfl (.write rfl (.write rfl (leads_write rfl))))

theorem leads_disarming :
    ∃ n, Leads K a p (disarmingSent K a) ⟨afterRetract K a, f, q⟩ ⟨.done, n, q⟩ := by
  unfold disarmingSent afterRetract
  cases K.stallHoming.get a with
  | true => exact ⟨_, leads_write rfl⟩
  | false => exact ⟨_, .write rfl (leads_write rfl)⟩

/-- A homing whose two loops end comes to `H_DONE` with its counter zeroed. -/
theorem leads_homing {k1 k2 : Nat} (hmoving1 : ∀ j < k1, ¬ stoppedAt K a (f + armingWrites K a + 2 * j + 1))
    (hstopped1 : stoppedAt K a (f + armingWrites K a + 2 * k1 + 1))
    (hmoving2 : ∀ j < k2, ¬ stoppedAt K a (f + armingWrites K a + 2 * k1 + 7 + 2 * j + 1))
    (hstopped2 : stoppedAt K a (f + armingWrites K a + 2 * k1 + 7 + 2 * k2 + 1)) :
    ∃ n, Leads K a p (homingSent K a p k1 k2) ⟨firstPhase K a, f, q⟩ ⟨.done, n, q.set a 0#32⟩ := by
  have hseek := leads_polls (ph := .seekPoll) (p := p) (q := q) rfl rfl hmoving1 hstopped1
  have hreturn := leads_polls (ph := .retPoll) (p := p) (q := q.set a 0#32) rfl rfl hmoving2 hstopped2
  obtain ⟨n, hdisarming⟩ := leads_disarming
  exact ⟨n, (((leads_arming.trans hseek).trans leads_retract).trans hreturn).trans hdisarming⟩

end

/-! ### Homing that ends, and homing that does not -/

/-- Settles O48: `leads_homing` up to `H_DONE`, and one step more, which sends nothing. -/
theorem homingRunsToItsEnd : Obligations.HomingRunsToItsEnd := by
  intro K a p s k1 k2 hhome hread hmoving1 hstopped1 hmoving2 hstopped2
  obtain ⟨n, hleads⟩ := leads_homing (p := p) (q := s.pos) hmoving1 hstopped1 hmoving2 hstopped2
  obtain ⟨hdone, hdir, hsnap, hsent⟩ := hleads s ⟨hhome, hread, rfl, rfl⟩
  rw [← length_homingSent K a p, Function.iterate_succ_apply', foregroundStep_done hdone.homing, hdone.pos,
    PerAxis.set_set]
  exact ⟨rfl, rfl, rfl, rfl, hdir, hsnap, hsent⟩

/-- Settles O49: no poll ends the rounds of `leads_rounds`. -/
theorem unreachedEndstopPollsForever : Obligations.UnreachedEndstopPollsForever := by
  intro K a p s hhome hread hmoving k
  have hrounds := leads_rounds (p := p) (f := s.fresh) (q := s.pos) (K := K) (a := a) (ph := .seekPoll) rfl rfl
    k fun j _ => hmoving _
  obtain ⟨hplace, hsends⟩ := hrounds s ⟨hhome, hread, rfl, rfl⟩
  have hlength : (List.replicate k [sentPoll K a, sentPoll K a, .yield]).flatten.length = 3 * k := by
    simp [Nat.mul_comm]
  rw [hlength] at hplace hsends
  have ⟨_, hop, _⟩ := hplace.homing
  exact ⟨hplace.homing, hplace.readPend, (busy_iff _).2 (.inl hop), hplace.pos, hsends.trace⟩

end Sys2Proof.Machine
end

section
/-! SUPPORT. INIT, the position commands, critical sections and the planner interface, the endstop query
(45_init_and_interfaces.md R250 to R262), and a compare event held back by a critical section (R258, R259;
60_exceptions.md R278, R279). -/

namespace Sys2Proof.Machine

/-! ### The position commands -/

/-- Settles O15: GETPOS is accepted where SETPOS was, and reads the counter that SETPOS wrote. -/
theorem positionCommands : Obligations.PositionCommands := by
  refine fun a s h => ⟨execSetpos_accepted a h, execGetpos_accepted a h, fun a' => ?_⟩
  rw [execGetpos_accepted a' (s := { s with pos := s.pos.set a s.arg0 }) h, PerAxis.get_set]

/-! ### Critical sections and the planner interface -/

theorem execCsEnter_running {s : State} (hf : s.faults = []) :
    exec .csEnter s = .next (csOpen s) :=
  congrArg Host.Outcome.next (unitStep_ok hf rfl)

theorem execCsExit_open {s : State} (hf : s.faults = []) (hd : s.csDepth ≠ 0) :
    exec .csExit s = .next { s with csDepth := s.csDepth - 1 } :=
  congrArg Host.Outcome.next (unitStep_ok hf (csClose_of_pos hd))

theorem execCsExit_unbalanced {s : State} (hf : faultFree s) (hd : s.csDepth = 0) :
    exec .csExit s = .next (withFault .csUnbalanced s) :=
  congrArg Host.Outcome.next (unitStep_error hf (if_pos hd))

theorem hostAppend_running (b : Block) {s : State} (hf : s.faults = []) :
    hostAppend b s = { s with plan := s.plan ++ [b] } :=
  if_neg (by simp [(not_faulted_iff s).2 hf])

/-- Settles O16: no fault is recorded, so each operation does what its body does. -/
theorem sectionsYieldAndPlanner : Obligations.SectionsYieldAndPlanner := by
  intro s hf
  have running {body : State → Except FaultCode State} {t : State} (hb : body s = .ok t) :
      (.next (unitStep body s) : Result) = .next t := congrArg Host.Outcome.next (unitStep_ok hf hb)
  exact ⟨execCsEnter_running hf, execCsExit_open hf, fun hd hz => execCsExit_unbalanced ⟨hf, hz⟩ hd,
    running rfl, running rfl, running rfl, fun b => congrArg Host.Outcome.next (hostAppend_running b hf)⟩

/-! ### INIT -/

/-- The frames of 45_init_and_interfaces.md R250 are those of the writes of INIT. -/
theorem initSent_eq_map (K : Params) : initSent K = (initWrites K).map (RegWrite.sent K) := rfl

/-- INIT writes to every chip and so releases every select line. -/
theorem csAfter_initWrites (K : Params) (cs : PerAxis Bool) :
    csAfter (initWrites K) cs = .const false := rfl

/-- The last register INIT writes of an axis is `SW_MODE`. -/
theorem latchAfter_initWrites (K : Params) (l : PerAxis (Option Byte)) :
    latchAfter K (initWrites K) l = .const (some (K.writeFlag ||| K.devreg .swMode)) := rfl

/-- `s` after its first INIT, whose frames are `evs` (45_init_and_interfaces.md R250). -/
def afterInit (K : Params) (evs : List Event) (s : State) : State := { s with
  cs := .const false
  devLatch := .const (some (K.writeFlag ||| K.devreg .swMode))
  tmr := { s.tmr with ctc := true, prescaler := some K.prescaler, ocr := K.ocrInit, tie := true }
  initDone := true
  fresh := s.fresh + 32
  trace := s.trace ++ evs ++ [.timerSet K.ocrInit] }

theorem initBody_first (K : Params) {s : State} (hi : s.initDone = false) :
    ∃ evs : List Event, initBody K s = .ok (afterInit K evs s) ∧ evs.map Event.sent = initSent K := by
  obtain ⟨evs, hsent, hwrites⟩ := writeAll_spec K (initWrites K) s
  rw [csAfter_initWrites, latchAfter_initWrites] at hwrites
  refine ⟨evs, ?_, hsent.trans (initSent_eq_map K).symm⟩
  rw [initBody, if_neg (by simp [hi]), hwrites]
  rfl

/-- Before `init_done` INIT is admitted, and does what its body does. -/
theorem execInit_first {s : State} (hf : s.faults = []) (ho : s.fgOp = none) (hi : s.initDone = false) :
    ∃ evs : List Event, exec .init s = .next (afterInit Config.params evs s)
      ∧ evs.map Event.sent = initSent Config.params := by
  obtain ⟨evs, hbody, hsent⟩ := initBody_first Config.params hi
  have hcommand : initCommand Config.params s = afterInit Config.params evs s := by
    rw [initCommand, hostCommand_accepted hf ho (.inl rfl), hbody]
    rfl
  exact ⟨evs, congrArg Host.Outcome.next hcommand, hsent⟩

theorem execInit_second {s : State} (hf : faultFree s) (ho : s.fgOp = none) (hi : s.initDone = true) :
    exec .init s = .next (withFault .reinit s) := by
  have hbody : initBody Config.params s = .error .reinit := if_pos hi
  have hcommand : initCommand Config.params s = withFault .reinit s := by
    rw [initCommand, hostCommand_accepted hf.1 ho (.inl rfl), hbody]
    exact raiseFault_faultFree _ s hf
  exact congrArg Host.Outcome.next hcommand

/-- STATUS of a block that is initialised, idle and without a fault (10_state.md R23, R24). -/
theorem status_initialised {s : State} (hf : faultFree s) (ho : s.fgOp = none)
    (hi : s.initDone = true) : s.status = 0x00000004#32 := by
  obtain ⟨hfaults, hfirst⟩ := hf
  simp [State.status, State.busy, State.faulted, hfaults, hfirst, ho, hi, bit]

/-- Settles O14: the first INIT ends in `afterInit`, whose STATUS shows `INIT_DONE` alone. -/
theorem initProgramsEveryChip : Obligations.InitProgramsEveryChip := by
  refine ⟨fun s => execInit_first, fun s hf ho hi => ?_, fun s => execInit_second⟩
  obtain ⟨hfaults, hzero⟩ := hf
  obtain ⟨evs, hexec, _⟩ := execInit_first hfaults ho hi
  exact ⟨_, hexec, status_initialised ⟨hfaults, hzero⟩ ho rfl⟩

/-! ### A compare event in a critical section -/

/-- `s` with a compare event pending (60_exceptions.md R278). -/
def withPending (s : State) : State := { s with tmr := { s.tmr with pending := true } }

theorem timerStep_running {s : State} (h : s.timerRuns = true) : timerStep s = withPending s := if_pos h

/-- However many compare events occur, one is pending (60_exceptions.md R278). -/
theorem timerStep_iterate_succ {s : State} (h : s.timerRuns = true) (m : Nat) :
    timerStep^[m + 1] s = withPending s := by
  induction m with
  | zero => exact timerStep_running h
  | succ m ih =>
    rw [Function.iterate_succ_apply', ih]
    exact timerStep_running (s := withPending s) h

theorem timerRuns_faults {s : State} (h : s.timerRuns = true) : s.faults = [] := by
  obtain ⟨_, hf⟩ := Bool.and_eq_true_iff.1 h
  exact (not_faulted_iff s).1 (by simpa using hf)

/-- The handler answers the event, in each of its states, but where a bus command runs. -/
theorem interruptStep_not_pending (K : Params) {s : State} (ht : takeable s) (hb : s.busy = false) :
    (interruptStep K s).tmr.pending = false := by
  rcases interruptStep_inv K s with ⟨hn, _⟩ | ⟨_, _, e⟩ | ⟨_, _, e⟩ | ⟨_, _, _, hb', _⟩
    | ⟨_, _, _, _, _, _, e⟩
  · exact absurd ht hn
  · rw [e]
  · rw [e]
  · simp [hb] at hb'
  · rw [e]

theorem execTimerCompare_not {s : State} (h : ¬ takeable s) : exec .timerCompare s = .next s :=
  congrArg Host.Outcome.next (interruptStep_not _ s h)

/-- Settles O43: in the section the depth forbids the interrupt; after it the interrupt is taken, which clears
the one pending event. -/
theorem criticalSectionHoldsInterrupt : Obligations.CriticalSectionHoldsInterrupt := by
  intro s m hrun htie hgie hdepth hisr hop
  have hf := timerRuns_faults hrun
  have hheld : ¬ takeable (withPending (csOpen s)) :=
    fun ⟨_, _, _, hclosed, _⟩ => Nat.succ_ne_zero _ hclosed
  have hexit : exec .csExit (withPending (csOpen s)) = .next (withPending s) :=
    execCsExit_open hf (Nat.succ_ne_zero _)
  have htaken : takeable (withPending s) := ⟨rfl, htie, hgie, hdepth, hisr, hf⟩
  have hcleared : (interruptStep Config.params (withPending s)).tmr.pending = false :=
    interruptStep_not_pending _ htaken (by simp [State.busy, withPending, hop])
  have hanswered : ¬ takeable (interruptStep Config.params (withPending s)) :=
    fun ⟨hpending, _⟩ => by simp [hcleared] at hpending
  refine ⟨csOpen s, withPending s, interruptStep Config.params (withPending s), execCsEnter_running hf, ?_⟩
  rw [timerStep_iterate_succ (s := csOpen s) hrun]
  exact ⟨execTimerCompare_not hheld, hexit, htaken, rfl, hcleared, execTimerCompare_not hanswered⟩

/-! ### The endstop query -/

section
variable {K : Params} {a : Axis} {m : Word} {s : State}

/-- While ENDSTOP is in progress the foreground unit takes its steps (10_state.md R25). -/
theorem foregroundStep_endstop {c : EndCall} (hf : s.faults = []) (ho : s.fgOp = some .endstop)
    (hc : s.endCall = some c) : foregroundStep K s = endstopStep K c s := by
  simp [foregroundStep, foregroundBody, (not_faulted_iff s).2 hf, ho, hc]

/-- With no read open ENDSTOP sends the first frame (45_init_and_interfaces.md R257). -/
theorem foregroundStep_endstop_first (hf : s.faults = []) (ho : s.fgOp = some .endstop)
    (hc : s.endCall = some ⟨a, m⟩) (hr : s.readPend = none) :
    foregroundStep K s = busReadFirst K a (K.devreg .rampStat) s := by
  rw [foregroundStep_endstop hf ho hc, endstopStep_eq, if_neg (by simp [hr])]

/-- With its read open ENDSTOP sends the second frame and ends with the result (45 R257). -/
theorem foregroundStep_endstop_second (hf : s.faults = []) (ho : s.fgOp = some .endstop)
    (hc : s.endCall = some ⟨a, m⟩) (hr : s.readPend = some ⟨a, K.devreg .rampStat⟩) :
    foregroundStep K s = { busReadSecond K a (K.devreg .rampStat) s with
      result := endstopHit (frameAnswer K a s) m, fgOp := none, endCall := none } := by
  rw [foregroundStep_endstop hf ho hc, endstopStep_eq, if_pos hr]

end

theorem endstopHit_eq (v m : Word) : endstopHit v m = if v &&& m = 0#32 then 0#32 else 1#32 :=
  ite_not ..

theorem execEndstop_accepted (a : Axis) {s : State} (h : acceptsCommand s) :
    exec (.endstop a) s = .next { s with
      fgOp := some .endstop, endCall := some ⟨a, s.arg0⟩, readPend := none } :=
  congrArg Host.Outcome.next (hostCommand_ok h rfl)

/-- Settles O51: the issue leaves no read open, so the first step sends the frame that addresses the register and
the second the one that answers it. -/
theorem endstopReadsStatusRegister : Obligations.EndstopReadsStatusRegister := by
  intro a s h s1
  refine ⟨execEndstop_accepted a h, fun K => ?_⟩
  intro v
  obtain ⟨hf, ho, _⟩ := h
  have hfirst : foregroundStep K s1 = busReadFirst K a (K.devreg .rampStat) s1 :=
    foregroundStep_endstop_first hf rfl rfl rfl
  have hsecond := foregroundStep_endstop_second (K := K)
    (s := busReadFirst K a (K.devreg .rampStat) s1) hf rfl rfl rfl
  have hanswer : frameAnswer K a (busReadFirst K a (K.devreg .rampStat) s1) = v :=
    frameAnswer_addressed K (PerAxis.get_set_self _ a _)
  rw [hfirst, hsecond, busReadSecond_eq, frameOf, hanswer, endstopHit_eq]
  refine ⟨rfl, rfl, frameOf K a (K.devreg .rampStat) 0#32 s1,
    frameStatus K a (busReadFirst K a (K.devreg .rampStat) s1), rfl, ?_⟩
  simp [busReadFirst_eq, readAddress, s1, ho]

end Sys2Proof.Machine
end

section
/-! SUPPORT. What a step can do to the fault record and in a faulted block (60_exceptions.md R270 to R272), and the
timer before INIT and from then on (60_exceptions.md R277 to R279, 70_reset_and_hazards.md R302). -/

namespace Sys2Proof.Machine

/-! ### The timer's control -/

/-- The fields `timerWf` is about. -/
def State.timerControl (s : State) : Bool × Bool × Option Nat × Bool :=
  (s.tmr.ctc, s.tmr.tie, s.tmr.prescaler, s.initDone)

theorem timerWf_congr {s t : State} (h : t.timerControl = s.timerControl) (hs : timerWf s) : timerWf t := by
  simp only [State.timerControl, Prod.mk.injEq] at h
  obtain ⟨hctc, htie, hprescaler, hinit⟩ := h
  simpa only [timerWf, hctc, htie, hprescaler, hinit] using hs

/-- Of the instructions only INIT writes the timer's control, and it turns all of it on (45_init_and_interfaces.md
R250). -/
theorem exec_timerWf {i : Instr} {s t : State} (h : exec i s = .next t) (hs : timerWf s) : timerWf t := by
  have unwritten (hw : (writtenBy i s t).timerControl = s.timerControl) : timerWf t :=
    timerWf_congr (exec_unwritten State.timerControl (fun _ _ _ => rfl) h hw) hs
  cases i with
  | init =>
    obtain rfl := Host.Outcome.next.inj h
    rcases initCommand_inv Config.params s with hst | ⟨_, _, evs, e⟩
    · exact timerWf_congr (hst.unwritten State.timerControl fun _ _ _ => rfl) hs
    · rw [e]; exact ⟨rfl, rfl, rfl⟩
  | _ => exact unwritten rfl

theorem act_timerWf {α : Action} {s t : State} (h : act α s = .next t) (hs : timerWf s) : timerWf t := by
  rcases act_cases h with ⟨_, i, _, he⟩ | ⟨_, rfl⟩ | ⟨_, rfl⟩ | ⟨_, e⟩
  · exact exec_timerWf he hs
  · exact timerWf_congr (congrArg State.timerControl (foregroundStep_frame _ s)) hs
  · exact ⟨rfl, rfl, rfl⟩
  · exact timerWf_congr (congrArg State.timerControl e) hs

theorem timerStep_stopped {s : State} (h : s.timerRuns = false) : timerStep s = s :=
  if_neg (Bool.eq_false_iff.1 h)

/-- Settles O40: the step takes the interrupt under `takeable` alone. -/
theorem interruptNotTaken : Obligations.InterruptNotTaken := fun _ h => execTimerCompare_not h

/-- Settles O58: INIT is the only writer of the timer's control; while that is off, no compare event is enabled and
the interrupt's own enable forbids it. -/
theorem stepKeepsTimerOffUntilInit : Obligations.StepKeepsTimerOffUntilInit := by
  refine ⟨fun s t hs h => ?_, fun s ⟨hctc, htie, _⟩ hi => ⟨?_, ?_⟩⟩
  · rcases step_cases h with ⟨_, i, he⟩ | ⟨_, α, rest, n, ha⟩
    · exact exec_timerWf he hs
    · exact act_timerWf ha hs
  · have hoff : s.timerRuns = false := by simp [State.timerRuns, hctc, hi]
    exact congrArg Host.Outcome.next (timerStep_stopped hoff)
  · exact interruptNotTaken s fun ⟨_, hon, _⟩ => by simp [htie, hi] at hon

/-! ### The faults a step records -/

/-- What a step can do to the recorded faults: nothing, or record one of `cs` where none is (60_exceptions.md R271,
R272). -/
def recordsOneOf (cs : List FaultCode) (s t : State) : Prop :=
  t.faults = s.faults ∨ (s.faults = [] ∧ ∃ c ∈ cs, t.faults = [c])

theorem onlyFault.recordsOneOf {cs : List FaultCode} {s t : State} (h : onlyFault cs s t) :
    recordsOneOf cs s t := by
  obtain ⟨hf, c, hc, e⟩ := h
  exact .inr ⟨hf, c, hc, by rw [e]⟩

theorem exec_records {i : Instr} {s t : State} (h : exec i s = .next t) : recordsOneOf (faultsOf i) s t := by
  rcases exec_frame h with e | ho
  · exact .inl ((congrArg State.faults e).trans (by cases i <;> rfl))
  · exact ho.recordsOneOf

/-- An agent's step records a fault of its own, or one of an instruction that the agents run. -/
theorem act_records {α : Action} {s t : State} (hr : α ≠ .reset) (h : act α s = .next t) :
    recordsOneOf (faultsOfAgent α) s t
    ∨ ∃ i : Instr, i.opcode.hostIssuable = true ∧ recordsOneOf (faultsOf i) s t := by
  rcases act_frame h with e | ho | ⟨_, i, _, _, hi, he⟩
  · refine .inl (.inl ((congrArg State.faults e).trans ?_))
    cases α with
    | reset => exact absurd rfl hr
    | hostWrite => rw [writtenByAgent_hostWrite]
    | _ => rfl
  · exact .inl ho.recordsOneOf
  · exact .inr ⟨i, hi, exec_records he⟩

/-- Of the faults that 60_exceptions.md R270 calls unreachable a host command raises none. -/
theorem faultsOf_ownReachable {i : Instr} (hi : i.opcode.hostIssuable = true) :
    ∀ c ∈ faultsOf i, c.ownReachable = true := by
  cases i with
  | rbCommit | rbDiscard | csExit => cases hi
  | _ => simp [faultsOf, FaultCode.ownReachable]

theorem faultsOfAgent_ownReachable (α : Action) : ∀ c ∈ faultsOfAgent α, c.ownReachable = true := by
  cases α <;> simp [faultsOfAgent, FaultCode.ownReachable]

theorem recordsOneOf.ownFaults {cs : List FaultCode} {s t : State} (h : recordsOneOf cs s t)
    (hcs : ∀ c ∈ cs, c.ownReachable = true) (hs : ownFaults s) : ownFaults t := by
  rcases h with e | ⟨_, c, hc, e⟩
  · exact fun d hd => hs d (e ▸ hd)
  · intro d hd
    obtain rfl := List.mem_singleton.1 (e ▸ hd)
    exact hcs d hc

theorem act_ownFaults {α : Action} {s t : State} (h : act α s = .next t) (hs : ownFaults s) :
    ownFaults t := by
  by_cases hr : α = .reset
  · subst hr
    obtain rfl := Host.Outcome.next.inj h
    exact nofun
  · rcases act_records hr h with hrec | ⟨i, hi, hrec⟩
    · exact hrec.ownFaults (faultsOfAgent_ownReachable α) hs
    · exact hrec.ownFaults (faultsOf_ownReachable hi) hs

/-- Settles O60: the three faults belong to RB_COMMIT, RB_DISCARD and CS_EXIT issued by themselves, which no agent
runs. -/
theorem stepKeepsOwnFaults : Obligations.StepKeepsOwnFaults := by
  intro s t hp hs h
  rcases step_cases h with ⟨hn, _⟩ | ⟨_, α, rest, n, ha⟩
  · exact absurd hp hn
  · exact act_ownFaults ha hs

/-! ### A faulted block -/

/-- Every operation but the event TIMER_COMPARE is a step of a unit. -/
theorem exec_unitStep {i : Instr} (h : i ≠ .timerCompare) :
    ∃ body, ∀ s, exec i s = .next (unitStep body s) := by
  cases i with
  | timerCompare => exact absurd rfl h
  | _ => exact ⟨_, fun _ => rfl⟩

section
variable {s : State} (hf : s.faults ≠ [])
include hf

theorem not_takeable_of_faulted : ¬ takeable s := fun ⟨_, _, _, _, _, hnone⟩ => hf hnone

theorem exec_faulted (i : Instr) : exec i s = .next s := by
  by_cases hi : i = .timerCompare
  · subst hi; exact execTimerCompare_not (not_takeable_of_faulted hf)
  · obtain ⟨body, h⟩ := exec_unitStep hi
    rw [h, unitStep_faulted body s hf]

theorem foregroundStep_faulted (K : Params) : foregroundStep K s = s := if_pos ((faulted_iff s).2 hf)

theorem timerStep_faulted : timerStep s = s :=
  timerStep_stopped (by simp [State.timerRuns, (faulted_iff s).2 hf])

theorem issueCommand_faulted (w : Word) : issueCommand w s = .next s := by
  rcases issueCommand_admitted_or_rejected w s with ⟨i, _, _, h⟩ | h
  · exact h.trans (exec_faulted hf i)
  · exact h.trans (congrArg _ (unitStep_faulted _ s hf))

theorem hostAppend_faulted (b : Block) : hostAppend b s = s := if_pos ((faulted_iff s).2 hf)

theorem illegalAccess_faulted : illegalAccess s = s := unitStep_faulted _ s hf

theorem hostRead_illegal_faulted {addr n : Nat} (hl : legalAccess addr n = false) :
    hostRead addr n s = s := by
  rw [hostRead, if_neg (Bool.eq_false_iff.1 hl), illegalAccess_faulted hf]

theorem hostWrite_illegal_faulted {addr n : Nat} (hl : legalAccess addr n = false) (v : Word) :
    hostWrite addr n v s = .next s := by
  rw [hostWrite, if_neg (Bool.eq_false_iff.1 hl), illegalAccess_faulted hf]

end

theorem hostRead_legal {addr n : Nat} (hl : legalAccess addr n = true) (s : State) :
    hostRead addr n s = { s with hostData := windowRead s addr } := if_pos hl

theorem recordsOneOf.of_faulted {cs : List FaultCode} {s t : State} (h : recordsOneOf cs s t)
    (hf : s.faults ≠ []) : t.faults = s.faults :=
  h.resolve_right fun ⟨hnone, _⟩ => hf hnone

theorem recordsOneOf.length_le_one {cs : List FaultCode} {s t : State} (h : recordsOneOf cs s t)
    (hs : s.faults.length ≤ 1) : t.faults.length ≤ 1 := by
  rcases h with e | ⟨_, c, _, e⟩
  · exact e ▸ hs
  · simp [e]

/-- A recorded fault outlives every agent's step but reset. -/
theorem act_faults_of_faulted {α : Action} {s t : State} (hf : s.faults ≠ []) (hr : α ≠ .reset)
    (h : act α s = .next t) : t.faults = s.faults := by
  rcases act_records hr h with hrec | ⟨_, _, hrec⟩ <;> exact hrec.of_faulted hf

theorem act_faults_length_le_one {α : Action} {s t : State} (hs : s.faults.length ≤ 1)
    (h : act α s = .next t) : t.faults.length ≤ 1 := by
  by_cases hr : α = .reset
  · subst hr
    obtain rfl := Host.Outcome.next.inj h
    exact Nat.zero_le 1
  · rcases act_records hr h with hrec | ⟨_, _, hrec⟩ <;> exact hrec.length_le_one hs

/-- Settles O11: each unit and each access checks for a recorded fault first, and a step records a fault only where
there is none. -/
theorem faultedBlockIsQuiescent : Obligations.FaultedBlockIsQuiescent := by
  refine ⟨fun s hf => ?_, fun _ _ _ => act_faults_of_faulted, fun _ _ _ => act_faults_length_le_one⟩
  exact ⟨exec_faulted hf, congrArg _ (foregroundStep_faulted hf _), exec_faulted hf .timerCompare,
    congrArg _ (timerStep_faulted hf), issueCommand_faulted hf, fun _ => rfl,
    fun b => congrArg _ (hostAppend_faulted hf b), fun _ _ hl => congrArg _ (hostRead_legal hl s),
    fun _ _ hl => ⟨congrArg _ (hostRead_illegal_faulted hf hl), hostWrite_illegal_faulted hf hl⟩⟩

end Sys2Proof.Machine
end

section
/-! SUPPORT. The external reset as a step of the machine (70_reset_and_hazards.md R300). -/

namespace Sys2Proof.Machine

/-- The external reset reads of the state only what log 17 counts to the world outside the block: no fault, command
or phase is looked at. -/
theorem act_reset (s : State) :
    act .reset s = .next { State.reset with fresh := s.fresh, agenda := s.agenda, hostData := s.hostData } :=
  rfl

/-- Settles O7: with the port empty the step takes the reset from the agenda. -/
theorem externalResetFromAnyState : Obligations.ExternalResetFromAnyState := fun s rest hp ha =>
  calc step s
    _ = act .reset { s with agenda := rest } := step_agenda hp ha
    _ = .next { State.reset with fresh := s.fresh, agenda := rest, hostData := s.hostData } := act_reset _

end Sys2Proof.Machine
end
